-- ==== Sys2Proof/Word.lean ====
section
/-! DEFINITION. The value types of the spec (00_scope.md rule R6): u8, u32, u64 and byte strings.
All arithmetic on them is `BitVec` arithmetic, which is modulo 2^W and unsigned (rule R7). -/

namespace Sys2Proof

/-- u8 (R6). -/
abbrev Byte := BitVec 8

/-- u32 (R6). -/
abbrev U32 := BitVec 32

/-- u64 (R6). -/
abbrev U64 := BitVec 64

/-- A byte string `B`: `|B|` is its length, `B[i]` its byte `i`, counted from 0 (R6). -/
abbrev Bytes := List Byte

end Sys2Proof
end

