-- ==== Sys2Proof/Config.lean ====
section
/-! DEFINITION. What an instance of the core fixes (00_scope.md rule R5, 10_state.md rule R31).
The plain-data parameters are gathered in `CoreConfig`, a field of the machine's state that no step
changes, so that every statement over all states is a statement over all configurations.
The seven long-path functions are OPEN (92_eei_decisions.md D23): they are opaque constants, of
which nothing can be proved but that they are functions. -/

namespace Sys2Proof

/-- A set of the four capabilities of 10_state.md rule R37. -/
structure CapSet where
  /-- 128-bit SIMD with byte shuffle and lane multiply. -/
  simd128 : Bool
  /-- Hardware CRC32. -/
  crc32 : Bool
  /-- AES round support. -/
  aes : Bool
  /-- 64-bit pointer width. -/
  ptr64 : Bool
  deriving DecidableEq, Repr

/-- The families HASH32 and HASH32S may use (47_dispatch_api.md rule R310). -/
inductive Sel32 where
  | mk | sa | su | nt
  deriving DecidableEq, Repr

/-- The families HASH64 may use (R310). -/
inductive Sel64 where
  | xo | te
  deriving DecidableEq, Repr

/-- The families HASH64S and HASH64SS may use (R310). -/
inductive Sel64S where
  | na | uo | xo | te
  deriving DecidableEq, Repr

/-- A range of input addresses, `base` to `base + size - 1`. -/
structure MemRange where
  base : Nat
  size : Nat
  deriving DecidableEq, Repr

/-- The plain-data parameters of one instance (00_scope.md rule R5), and of its platform. -/
structure CoreConfig where
  /-- `HWCAP`: the capabilities the datapath has. -/
  hwcap : CapSet
  /-- `CLAIMCAP`: the capabilities the configuration claims; CAP reads it. -/
  claimcap : CapSet
  /-- `DEBUG`: the DebugTweak stage is enabled. -/
  debug : Bool
  /-- `SEL32`. -/
  sel32 : Sel32
  /-- `SEL64`. -/
  sel64 : Sel64
  /-- `SEL64S`. -/
  sel64s : Sel64S
  /-- `REG_BASE`: where the register window sits in the host's address space. -/
  regBase : Nat
  /-- The platform's input addresses whose reads have side effects (20_memory.md rule R65). -/
  sideEffects : List MemRange
  deriving DecidableEq, Repr

/-- `TE_LONG0 : bytes → u64` (43_family_te_nt.md rule R224), applied only to 512 bytes or more.
No body: the spec gives none (D23; notes/assumptions/9.md). -/
opaque Config.teLong0 : Bytes → U64

/-- `TE_LONG1 : bytes × u64 → u64` (R224), as `Config.teLong0`. -/
opaque Config.teLong1 : Bytes → U64 → U64

/-- `TE_LONG2 : bytes × u64 × u64 → u64` (R224), as `Config.teLong0`. -/
opaque Config.teLong2 : Bytes → U64 → U64 → U64

/-- `SU_LONG0 : bytes → u32` (45_family_su_sa.md rule R265), applied only to 25 bytes or more. -/
opaque Config.suLong0 : Bytes → U32

/-- `SU_LONG1 : bytes × u32 → u32` (R265). -/
opaque Config.suLong1 : Bytes → U32 → U32

/-- `SA_LONG0 : bytes → u32` (R265). -/
opaque Config.saLong0 : Bytes → U32

/-- `SA_LONG1 : bytes × u32 → u32` (R265). -/
opaque Config.saLong1 : Bytes → U32 → U32

end Sys2Proof
end

