-- ==== Sys2Proof/Machine/Gates.lean ====
section
/-! DEFINITION. Capability gates (10_state.md rule R37), family selection (47_dispatch_api.md
rule R310), and the CAP and CONFIG words (rules R37, R38). -/

namespace Sys2Proof.Machine

/-- `g ⊆ c`. -/
def capSubset (g c : CapSet) : Bool :=
  (!g.simd128 || c.simd128) && (!g.crc32 || c.crc32) && (!g.aes || c.aes) && (!g.ptr64 || c.ptr64)

/-- The empty gate of NA, UO, XO, MK, CC and of every primitive and kernel command (R37). -/
def noGate : CapSet := { simd128 := false, crc32 := false, aes := false, ptr64 := false }

/-- TE's gate {SIMD128, PTR64}, which NT inherits (R37, R220). -/
def teGate : CapSet := { simd128 := true, crc32 := false, aes := false, ptr64 := true }

/-- SU's gate {SIMD128, CRC32, AES} (R37, R260; 90_conflicts.md C5). -/
def suGate : CapSet := { simd128 := true, crc32 := true, aes := true, ptr64 := false }

/-- SA's gate {SIMD128, CRC32} (R37, R260). -/
def saGate : CapSet := { simd128 := true, crc32 := true, aes := false, ptr64 := false }

/-- The gate of the family SEL32 names (R310). -/
def sel32Gate : Sel32 → CapSet
  | .mk => noGate
  | .sa => saGate
  | .su => suGate
  | .nt => teGate

/-- The gate of the family SEL64 names (R310). -/
def sel64Gate : Sel64 → CapSet
  | .xo => noGate
  | .te => teGate

/-- The gate of the family SEL64S names (R310). -/
def sel64sGate : Sel64S → CapSet
  | .na => noGate
  | .uo => noGate
  | .xo => noGate
  | .te => teGate

/-- A configuration is an instance of the core when each selector names a family whose gate is
within CLAIMCAP (R310; 93_implementation_defined.md U5). -/
def configAdmitted (c : CoreConfig) : Bool :=
  capSubset (sel32Gate c.sel32) c.claimcap && capSubset (sel64Gate c.sel64) c.claimcap
    && capSubset (sel64sGate c.sel64s) c.claimcap

/-- The default of SEL32: NT, else SU, else SA, else MK (R310). -/
def sel32Default (claim : CapSet) : Sel32 :=
  if capSubset teGate claim then .nt
  else if capSubset suGate claim then .su
  else if capSubset saGate claim then .sa
  else .mk

/-- The default of SEL64: TE, else XO (R310). -/
def sel64Default (claim : CapSet) : Sel64 :=
  if capSubset teGate claim then .te else .xo

/-- The default of SEL64S: TE, else XO (R310; 90_conflicts.md C8). -/
def sel64sDefault (claim : CapSet) : Sel64S :=
  if capSubset teGate claim then .te else .xo

/-- A Bool as a bit of a 64-bit word. -/
def bit (b : Bool) : U64 := if b then 1 else 0

/-- What CAP reads: SIMD128, CRC32, AES and PTR64 in bits 0 to 3, and 0 above (R37). -/
def capWord (c : CapSet) : U64 :=
  bit c.simd128 ||| bit c.crc32 <<< 1 ||| bit c.aes <<< 2 ||| bit c.ptr64 <<< 3

/-- SEL32's code in CONFIG (R38). -/
def sel32Code : Sel32 → U64
  | .mk => 0
  | .sa => 1
  | .su => 2
  | .nt => 3

/-- SEL64's code in CONFIG (R38). -/
def sel64Code : Sel64 → U64
  | .xo => 0
  | .te => 1

/-- SEL64S's code in CONFIG (R38). -/
def sel64sCode : Sel64S → U64
  | .na => 0
  | .uo => 1
  | .xo => 2
  | .te => 3

/-- What CONFIG reads: DEBUG in bit 0, SEL32 in bits 9:8, SEL64 in bit 12, SEL64S in bits 17:16,
and 0 elsewhere (R38). -/
def configWord (c : CoreConfig) : U64 :=
  bit c.debug ||| sel32Code c.sel32 <<< 8 ||| sel64Code c.sel64 <<< 12
    ||| sel64sCode c.sel64s <<< 16

end Sys2Proof.Machine
end

