-- ==== Sys2Proof/Syntax.lean ====
section
/-! DEFINITION. The commands of the core: one constructor per row of spec/opcode_table.json
(30_encoding.md rule R84). No constructor has an argument: a command word has no operand field
(R81), and every operand comes from SRC, LEN, X0 to X5 and the buffer. -/

namespace Sys2Proof

/-- One command of R84. -/
inductive Instr where
  -- 0x00 on: primitives, 40_primitives.md
  /-- NOP, OPC 0x00, rule R100. -/
  | nop
  /-- FETCH32, OPC 0x01, rule R101. -/
  | fetch32
  /-- FETCH64, OPC 0x02, rule R102. -/
  | fetch64
  /-- ROT32, OPC 0x03, rule R103. -/
  | rot32
  /-- ROT64, OPC 0x04, rule R104. -/
  | rot64
  /-- BSWAP32, OPC 0x05, rule R105. -/
  | bswap32
  /-- BSWAP64, OPC 0x06, rule R106. -/
  | bswap64
  /-- FMIX, OPC 0x07, rule R107. -/
  | fmix
  /-- MUR, OPC 0x08, rule R108. -/
  | mur
  /-- SHIFTMIX, OPC 0x09, rule R109. -/
  | shiftmix
  /-- HL16, OPC 0x0A, rule R111. -/
  | hl16
  /-- HL16M, OPC 0x0B, rule R110. -/
  | hl16m
  /-- TWEAK32, OPC 0x0C, rule R112. -/
  | tweak32
  /-- TWEAK64, OPC 0x0D, rule R113. -/
  | tweak64
  /-- TWEAK128, OPC 0x0E, rule R114. -/
  | tweak128
  -- 0x10 on: length kernels (R83)
  /-- NA_LEN0TO16, OPC 0x10, rule R141. -/
  | naLen0to16
  /-- NA_LEN17TO32, OPC 0x11, rule R142. -/
  | naLen17to32
  /-- NA_LEN33TO64, OPC 0x12, rule R143. -/
  | naLen33to64
  /-- WEAK32, OPC 0x13, rule R144. -/
  | weak32
  /-- WEAK32M, OPC 0x14, rule R145. -/
  | weak32m
  /-- XO_H32, OPC 0x18, rule R190. -/
  | xoH32
  /-- XO_LEN33TO64, OPC 0x19, rule R191. -/
  | xoLen33to64
  /-- XO_LEN65TO96, OPC 0x1A, rule R192. -/
  | xoLen65to96
  /-- UO_H, OPC 0x1C, rule R180. -/
  | uoH
  /-- MK_LEN0TO4, OPC 0x20, rule R240. -/
  | mkLen0to4
  /-- MK_LEN5TO12, OPC 0x21, rule R241. -/
  | mkLen5to12
  /-- MK_LEN13TO24, OPC 0x22, rule R242. -/
  | mkLen13to24
  /-- CC_LEN0TO4, OPC 0x24, rule R280. -/
  | ccLen0to4
  /-- CC_LEN5TO12, OPC 0x25, rule R281. -/
  | ccLen5to12
  /-- CC_LEN13TO24, OPC 0x26, rule R282. -/
  | ccLen13to24
  /-- CC_CITYMURMUR, OPC 0x27, rule R285. -/
  | ccCitymurmur
  -- 0x40 on: family entrypoints (R83)
  /-- NA_H64, OPC 0x40, rule R174. -/
  | naH64
  /-- NA_H64S, OPC 0x41, rule R175. -/
  | naH64s
  /-- NA_H64SS, OPC 0x42, rule R176. -/
  | naH64ss
  /-- UO_H64, OPC 0x44, rule R184. -/
  | uoH64
  /-- UO_H64S, OPC 0x45, rule R185. -/
  | uoH64s
  /-- UO_H64SS, OPC 0x46, rule R186. -/
  | uoH64ss
  /-- XO_H64, OPC 0x48, rule R195. -/
  | xoH64
  /-- XO_H64S, OPC 0x49, rule R196. -/
  | xoH64s
  /-- XO_H64SS, OPC 0x4A, rule R197. -/
  | xoH64ss
  /-- TE_H64, OPC 0x4C, rule R225. -/
  | teH64
  /-- TE_H64S, OPC 0x4D, rule R226. -/
  | teH64s
  /-- TE_H64SS, OPC 0x4E, rule R227. -/
  | teH64ss
  /-- NT_H32, OPC 0x50, rule R230. -/
  | ntH32
  /-- NT_H32S, OPC 0x51, rule R231. -/
  | ntH32s
  /-- MK_H32, OPC 0x54, rule R245. -/
  | mkH32
  /-- MK_H32S, OPC 0x55, rule R246. -/
  | mkH32s
  /-- SU_H32, OPC 0x58, rule R266. -/
  | suH32
  /-- SU_H32S, OPC 0x59, rule R267. -/
  | suH32s
  /-- SA_H32, OPC 0x5C, rule R268. -/
  | saH32
  /-- SA_H32S, OPC 0x5D, rule R269. -/
  | saH32s
  /-- CC_H32, OPC 0x60, rule R288. -/
  | ccH32
  /-- CC_H32S, OPC 0x61, rule R289. -/
  | ccH32s
  /-- CC_H128, OPC 0x62, rule R290. -/
  | ccH128
  /-- CC_H128S, OPC 0x63, rule R291. -/
  | ccH128s
  -- 0x80 on: the public API, 47_dispatch_api.md
  /-- HASH32, OPC 0x80, rule R312. -/
  | hash32
  /-- HASH32S, OPC 0x81, rule R313. -/
  | hash32s
  /-- HASH64, OPC 0x84, rule R314. -/
  | hash64
  /-- HASH64S, OPC 0x85, rule R315. -/
  | hash64s
  /-- HASH64SS, OPC 0x86, rule R316. -/
  | hash64ss
  /-- HASH128, OPC 0x88, rule R317. -/
  | hash128
  /-- HASH128S, OPC 0x89, rule R318. -/
  | hash128s
  /-- FP32, OPC 0x90, rule R319. -/
  | fp32
  /-- FP64, OPC 0x91, rule R320. -/
  | fp64
  /-- FP128, OPC 0x92, rule R321. -/
  | fp128
  deriving DecidableEq, Repr

end Sys2Proof
end

