-- ==== Sys2Proof/Machine/HostSyntax.lean ====
section
/-! DEFINITION. The host's side of the interface, as syntax: the registers of the window
(10_state.md rule R32), the host's accesses, and the assembly lines and pseudo-instructions of
30_encoding.md rules R88 and R89. -/

namespace Sys2Proof.Machine

/-- The registers of the window, in the order of R32. `reserved k` is offset `0x70 + 8*k`. -/
inductive Reg where
  | cmd | src | len
  | x0 | x1 | x2 | x3 | x4 | x5
  | r0 | r1 | status | cap | config
  | reserved (k : Fin 18)
  deriving DecidableEq, Repr

/-- The registers a `SET` line may name (R88), which are those the host can write (R32). -/
inductive OperandReg where
  | src | len | x0 | x1 | x2 | x3 | x4 | x5
  deriving DecidableEq, Repr

/-- What the host, or the platform, does to the engine in one step (notes/assumptions/8.md). -/
inductive HostAction where
  /-- The host stores `v`, of `bytes` bytes, at host address `addr`. -/
  | store (addr bytes : Nat) (v : U64)
  /-- The host loads `bytes` bytes at host address `addr`. -/
  | load (addr bytes : Nat)
  /-- `WAIT`: the host loads STATUS until DONE or FAULT is 1 (R88; notes/assumptions/11.md). -/
  | wait
  /-- The host stores a byte to the input memory, where the launch memory admits the address
  (20_memory.md rules R66, R68; notes/assumptions/6.md). -/
  | memStore (addr : U64) (b : Byte)
  /-- The platform resets the engine (70_reset_and_hazards.md rule R370; notes/assumptions/16.md). -/
  | reset
  deriving DecidableEq, Repr

/-- A line of host assembly (R88). -/
inductive Line where
  /-- `SET <reg>, <imm64>` -/
  | set (r : OperandReg) (imm : U64)
  /-- `CMD <mnemonic>` -/
  | cmd (i : Instr)
  /-- `CMDW <imm64>` -/
  | cmdw (imm : U64)
  /-- `GET <reg>` -/
  | get (r : Reg)
  /-- `WAIT` -/
  | wait
  /-- `DATA <addr>: <bytes>`, a statement of the memory image and no operation -/
  | data (addr : Nat) (bytes : Bytes)
  deriving DecidableEq, Repr

/-- A pseudo-instruction of host assembly (R89). -/
inductive Pseudo where
  /-- `BUF a, n` -/
  | buf (a n : U64)
  /-- `SEED s` -/
  | seed (s : U64)
  /-- `SEEDS s0, s1` -/
  | seeds (s0 s1 : U64)
  /-- `SEED128 lo, hi` -/
  | seed128 (lo hi : U64)
  /-- `RUN m` -/
  | run (m : Instr)
  /-- `HASHOF m, a, n` -/
  | hashof (m : Instr) (a n : U64)
  deriving DecidableEq, Repr

end Sys2Proof.Machine
end

