-- ==== Sys2Proof/Machine/State.lean ====
section
/-! DEFINITION. The machine's state (10_state.md rule R49), the reasons a step can stop, and the
state after reset (rule R48; 70_reset_and_hazards.md rule R370). -/

namespace Sys2Proof.Machine

/-- Why the engine has no step (20_memory.md rule R61). -/
inductive StuckReason where
  /-- Condition (a) fails: the buffer wraps past the top of the address space. -/
  | bufferWraps
  /-- Condition (b) fails: the platform's memory does not admit a byte of the buffer. -/
  | bufferNotAdmitted
  deriving DecidableEq, Repr

/-- The machine stops, with no later state. No FCODE is reported: ILLEGAL_OP, MISCONFIG and DOMAIN
are next states, not these (60_exceptions.md rule R341). -/
inductive Fault where
  /-- Raised by a command's buffer read (R61). Safe: nothing is claimed of the run after it. -/
  | stuck (why : StuckReason)
  /-- Raised by a command whose datapath fetches outside the buffer (R341, R67). The rules never
  reach it. Safe: nothing is claimed of the run after it. -/
  | internalRange
  deriving DecidableEq, Repr

/-- The model gives the situation no meaning. -/
inductive Refusal where
  /-- Raised by an arm of `exec` for a command that has no meaning yet. Safe. -/
  | notModelled (mnemonic : String)
  /-- Raised by a host access that is not an aligned 64-bit access to the window
  (10_state.md rule R41; 93_implementation_defined.md U16). Safe. -/
  | badHostAccess
  /-- Raised by a command whose buffer lies in memory whose reads have side effects
  (20_memory.md rule R65; U3). Safe. -/
  | sideEffectMemory
  /-- Raised by every step of a configuration that is not an instance of the core
  (47_dispatch_api.md rule R310; U5). Safe. -/
  | notAnInstance
  deriving DecidableEq, Repr

/-- Which registers have been written since reset: `false` is the `none` of R49. It records what
R33 and R48 call unwritten and stops nothing (notes/assumptions/2.md). -/
structure Written where
  src : Bool
  len : Bool
  x0 : Bool
  x1 : Bool
  x2 : Bool
  x3 : Bool
  x4 : Bool
  x5 : Bool
  r0 : Bool
  r1 : Bool
  deriving DecidableEq, Repr

/-- No register has been written since reset (R48). -/
def Written.nothing : Written :=
  { src := false, len := false, x0 := false, x1 := false, x2 := false, x3 := false, x4 := false,
    x5 := false, r0 := false, r1 := false }

/-- Input memory: (address, byte) pairs. The addresses it lists at launch are the ones the platform's
memory admits, and no step changes them; an unlisted address holds no value (20_memory.md rules R61,
R66; notes/assumptions/5.md). -/
abbrev Memory := List Host.Cell

/-- The state of one engine instance, its input memory and its host (INVENTORY.md, State). -/
structure State where
  /-- SRC, the buffer's byte address (R34). -/
  src : U64
  /-- LEN, the buffer's length in bytes (R35). -/
  len : U64
  /-- X0 to X5, the operand registers (R33). -/
  x0 : U64
  x1 : U64
  x2 : U64
  x3 : U64
  x4 : U64
  x5 : U64
  /-- R0 and R1, the result registers (R36). -/
  r0 : U64
  r1 : U64
  /-- STATUS.DONE (R39). -/
  done : Bool
  /-- STATUS.FAULT (R39). -/
  fault : Bool
  /-- STATUS.FCODE (R39, R340). -/
  fcode : BitVec 4
  /-- STATUS.LAST_OPC (R39). -/
  lastOpc : Byte
  /-- Which registers have been written since reset (R33, R49). -/
  written : Written
  /-- The instance's parameters (00_scope.md rule R5); no step changes them (R31, R374). -/
  cfg : CoreConfig
  /-- The input memory's admitted addresses with their bytes, addresses strictly rising (20_memory.md
  rules R60, R66). -/
  mem : Memory
  /-- The host's accesses still to come, oldest first (notes/assumptions/8.md). -/
  pending : List HostAction
  /-- What the host's loads have returned, oldest first (R381; notes/assumptions/17.md). -/
  got : List U64
  deriving DecidableEq, Repr

/-- The outcome of a step. -/
abbrev StepResult := Host.Outcome State Fault Refusal

/-- The configuration of the instance that `State.reset` describes: HWCAP = CLAIMCAP = {},
DEBUG = 0, the selectors at R310's defaults for that CLAIMCAP, the window at 0 and no side-effect
memory. DESIGN CHOICE (notes/assumptions/3.md, 4.md and 7.md); unsafe for a claim about
`State.reset` alone. -/
def configAtReset : CoreConfig :=
  { hwcap := { simd128 := false, crc32 := false, aes := false, ptr64 := false },
    claimcap := { simd128 := false, crc32 := false, aes := false, ptr64 := false },
    debug := false, sel32 := .mk, sel64 := .xo, sel64s := .xo, regBase := 0, sideEffects := [] }

/-- The machine right after reset (R48, R370): STATUS is 0, and every other register is unwritten
and holds 0 (DESIGN CHOICE, notes/assumptions/1.md; unsafe). No byte of memory is placed yet and
the host has done nothing. -/
def State.reset : State :=
  { src := 0, len := 0, x0 := 0, x1 := 0, x2 := 0, x3 := 0, x4 := 0, x5 := 0, r0 := 0, r1 := 0,
    done := false, fault := false, fcode := 0, lastOpc := 0, written := Written.nothing,
    cfg := configAtReset, mem := [], pending := [], got := [] }

end Sys2Proof.Machine
end

