-- ==== Sys2Proof/Machine/Flags.lean ====
section
/-! DEFINITION. STATUS (10_state.md rule R39), the core's only flags, and the fault codes it
reports (60_exceptions.md rule R340). -/

namespace Sys2Proof.Machine

/-- The faults of the hardware (R340). Codes 4 to 15 are reserved and never reported. -/
inductive FaultCode where
  | illegalOp | misconfig | domain
  deriving DecidableEq, Repr

/-- A fault's FCODE (R340). -/
def fcodeOf : FaultCode → BitVec 4
  | .illegalOp => 1
  | .misconfig => 2
  | .domain => 3

/-- What STATUS reads: DONE in bit 0, FAULT in bit 1, FCODE in bits 11:8, LAST_OPC in bits 23:16
and 0 elsewhere (R39). -/
def statusWord (s : State) : U64 :=
  bit s.done ||| bit s.fault <<< 1 ||| s.fcode.setWidth 64 <<< 8 ||| s.lastOpc.setWidth 64 <<< 16

/-- The STATUS writes that begin the issue of a command: DONE is cleared and LAST_OPC is the
command word's OPC field (30_encoding.md rule R86). -/
def startIssue (opc : Byte) (s : State) : State := { s with done := false, lastOpc := opc }

/-- Taking a fault (60_exceptions.md rule R346): FAULT, FCODE and DONE are written and nothing
else. There is no handler and no return; only `resetEngine` clears FAULT (R347). -/
def raiseFault (c : FaultCode) (s : State) : State :=
  { s with fault := true, fcode := fcodeOf c, done := false }

end Sys2Proof.Machine
end

