-- ==== Sys2Proof/Decode.lean ====
section
/-! DEFINITION. The command word (30_encoding.md rules R80 to R85): the decoder, total on every
64-bit value and rejecting by name, and the encoder, each written from the opcode table of R84. -/

namespace Sys2Proof

/-- Why a 64-bit value is no command word (R85). Both reasons raise ILLEGAL_OP. -/
inductive IllegalWord where
  /-- A bit of RSV (bits 63:8) is set. -/
  | rsvNonzero
  /-- OPC is a reserved value. -/
  | reservedOpc
  deriving DecidableEq, Repr

/-- OPC, bits 7:0 of the command word (R80). -/
def opcField (v : U64) : Byte := v.extractLsb' 0 8

/-- RSV, bits 63:8 of the command word (R80). -/
def rsvField (v : U64) : BitVec 56 := v.extractLsb' 8 56

/-- 0x00 to 0x0F: primitives (R83). -/
def opcPrimitives : List (Byte × Instr) :=
  [(0x00#8, .nop), (0x01#8, .fetch32), (0x02#8, .fetch64),
   (0x03#8, .rot32), (0x04#8, .rot64), (0x05#8, .bswap32),
   (0x06#8, .bswap64), (0x07#8, .fmix), (0x08#8, .mur),
   (0x09#8, .shiftmix), (0x0A#8, .hl16), (0x0B#8, .hl16m),
   (0x0C#8, .tweak32), (0x0D#8, .tweak64), (0x0E#8, .tweak128)]

/-- 0x10 to 0x27: length kernels (R83). -/
def opcKernels : List (Byte × Instr) :=
  [(0x10#8, .naLen0to16), (0x11#8, .naLen17to32), (0x12#8, .naLen33to64),
   (0x13#8, .weak32), (0x14#8, .weak32m), (0x18#8, .xoH32),
   (0x19#8, .xoLen33to64), (0x1A#8, .xoLen65to96), (0x1C#8, .uoH),
   (0x20#8, .mkLen0to4), (0x21#8, .mkLen5to12), (0x22#8, .mkLen13to24),
   (0x24#8, .ccLen0to4), (0x25#8, .ccLen5to12), (0x26#8, .ccLen13to24),
   (0x27#8, .ccCitymurmur)]

/-- 0x40 to 0x63: family entrypoints (R83). -/
def opcFamilies : List (Byte × Instr) :=
  [(0x40#8, .naH64), (0x41#8, .naH64s), (0x42#8, .naH64ss),
   (0x44#8, .uoH64), (0x45#8, .uoH64s), (0x46#8, .uoH64ss),
   (0x48#8, .xoH64), (0x49#8, .xoH64s), (0x4A#8, .xoH64ss),
   (0x4C#8, .teH64), (0x4D#8, .teH64s), (0x4E#8, .teH64ss),
   (0x50#8, .ntH32), (0x51#8, .ntH32s), (0x54#8, .mkH32),
   (0x55#8, .mkH32s), (0x58#8, .suH32), (0x59#8, .suH32s),
   (0x5C#8, .saH32), (0x5D#8, .saH32s), (0x60#8, .ccH32),
   (0x61#8, .ccH32s), (0x62#8, .ccH128), (0x63#8, .ccH128s)]

/-- 0x80 to 0x92: the public API (R83). -/
def opcApi : List (Byte × Instr) :=
  [(0x80#8, .hash32), (0x81#8, .hash32s), (0x84#8, .hash64),
   (0x85#8, .hash64s), (0x86#8, .hash64ss), (0x88#8, .hash128),
   (0x89#8, .hash128s), (0x90#8, .fp32), (0x91#8, .fp64),
   (0x92#8, .fp128)]

/-- The opcode table of R84, in its order. -/
def opcodeTable : List (Byte × Instr) :=
  opcPrimitives ++ opcKernels ++ opcFamilies ++ opcApi

/-- The command an OPC value names, if R84 lists it. -/
def lookupOpc (opc : Byte) : Option Instr :=
  (opcodeTable.find? (fun row => row.1 == opc)).map (fun row => row.2)

/-- The decoder: a command word is an OPC of R84 with RSV zero; every other value is rejected, for
a set RSV bit whatever its OPC (R85). -/
def decode (v : U64) : Except IllegalWord Instr :=
  if rsvField v = 0 then
    match lookupOpc (opcField v) with
    | some i => .ok i
    | none => .error .reservedOpc
  else .error .rsvNonzero

/-- The reserved OPC values as R85 lists them, as closed ranges. -/
def reservedOpcRanges : List (Nat × Nat) :=
  [(0x0F, 0x0F), (0x15, 0x17), (0x1B, 0x1B), (0x1D, 0x1F), (0x23, 0x23), (0x28, 0x3F),
   (0x43, 0x43), (0x47, 0x47), (0x4B, 0x4B), (0x4F, 0x4F), (0x52, 0x53), (0x56, 0x57),
   (0x5A, 0x5B), (0x5E, 0x5F), (0x64, 0x7F), (0x82, 0x83), (0x87, 0x87), (0x8A, 0x8F),
   (0x93, 0xFF)]

/-- OPC is one of the reserved values of R85. -/
def reservedOpc (opc : Byte) : Bool :=
  reservedOpcRanges.any (fun r => decide (r.1 ≤ opc.toNat ∧ opc.toNat ≤ r.2))

/-- A command's OPC (R84). -/
def Instr.opc : Instr → Byte
  | .nop => 0x00
  | .fetch32 => 0x01
  | .fetch64 => 0x02
  | .rot32 => 0x03
  | .rot64 => 0x04
  | .bswap32 => 0x05
  | .bswap64 => 0x06
  | .fmix => 0x07
  | .mur => 0x08
  | .shiftmix => 0x09
  | .hl16 => 0x0A
  | .hl16m => 0x0B
  | .tweak32 => 0x0C
  | .tweak64 => 0x0D
  | .tweak128 => 0x0E
  | .naLen0to16 => 0x10
  | .naLen17to32 => 0x11
  | .naLen33to64 => 0x12
  | .weak32 => 0x13
  | .weak32m => 0x14
  | .xoH32 => 0x18
  | .xoLen33to64 => 0x19
  | .xoLen65to96 => 0x1A
  | .uoH => 0x1C
  | .mkLen0to4 => 0x20
  | .mkLen5to12 => 0x21
  | .mkLen13to24 => 0x22
  | .ccLen0to4 => 0x24
  | .ccLen5to12 => 0x25
  | .ccLen13to24 => 0x26
  | .ccCitymurmur => 0x27
  | .naH64 => 0x40
  | .naH64s => 0x41
  | .naH64ss => 0x42
  | .uoH64 => 0x44
  | .uoH64s => 0x45
  | .uoH64ss => 0x46
  | .xoH64 => 0x48
  | .xoH64s => 0x49
  | .xoH64ss => 0x4A
  | .teH64 => 0x4C
  | .teH64s => 0x4D
  | .teH64ss => 0x4E
  | .ntH32 => 0x50
  | .ntH32s => 0x51
  | .mkH32 => 0x54
  | .mkH32s => 0x55
  | .suH32 => 0x58
  | .suH32s => 0x59
  | .saH32 => 0x5C
  | .saH32s => 0x5D
  | .ccH32 => 0x60
  | .ccH32s => 0x61
  | .ccH128 => 0x62
  | .ccH128s => 0x63
  | .hash32 => 0x80
  | .hash32s => 0x81
  | .hash64 => 0x84
  | .hash64s => 0x85
  | .hash64ss => 0x86
  | .hash128 => 0x88
  | .hash128s => 0x89
  | .fp32 => 0x90
  | .fp64 => 0x91
  | .fp128 => 0x92

/-- The encoder: the command word of a command is `zext_64(OPC)` (R80, R88). -/
def encode (i : Instr) : U64 := i.opc.setWidth 64

/-- The instruction the decoder reads from the table's numbering of bits: one 64-bit word, whose
bits above `nbits` are 0. -/
def decodeTableWord (nbits w : Nat) : Option Instr :=
  match decode (BitVec.ofNat 64 (w % 2 ^ nbits)) with
  | .ok i => some i
  | .error _ => none

end Sys2Proof
end

