-- ==== Sys2Proof/Machine/Primitives.lean ====
section
/-! DEFINITION. The constants (10_state.md rule R42) and the primitive functions of
40_primitives.md rules R101 to R114, which every datapath uses. -/

namespace Sys2Proof.Machine

/-- k0 (R42). -/
def k0 : U64 := 0xC3A5C85C97CB3127
/-- k1 (R42). -/
def k1 : U64 := 0xB492B66FBE98F273
/-- k2 (R42). -/
def k2 : U64 := 0x9AE16A3B2F90404F
/-- c1 (R42). -/
def c1 : U32 := 0xCC9E2D51
/-- c2 (R42). -/
def c2 : U32 := 0x1B873593
/-- kMul, the multiplier of the two-operand HashLen16 (R42). -/
def kMul : U64 := 0x9DDFEA08EB382D69
/-- The fmix multipliers (R42). -/
def fmixMul1 : U32 := 0x85EBCA6B
/-- The second fmix multiplier (R42). -/
def fmixMul2 : U32 := 0xC2B2AE35
/-- The Mur addend (R42). -/
def murAdd : U32 := 0xE6546B64

/-- `trunc_32` (00_scope.md rule R7). -/
def trunc32 (v : U64) : U32 := v.setWidth 32

/-- `zext_64` of a u32 (R7). -/
def zext64 (v : U32) : U64 := v.setWidth 64

/-- `sext_32` of a u8 (R7). -/
def sext32 (b : Byte) : U32 := b.signExtend 32

/-- A natural number used in 32-bit arithmetic (R7). -/
def nat32 (n : Nat) : U32 := BitVec.ofNat 32 n

/-- A natural number used in 64-bit arithmetic (R7). -/
def nat64 (n : Nat) : U64 := BitVec.ofNat 64 n

/-- `Fetch32(B, i)`, little-endian; `none` when it would read outside `B` (R62, R67, R101). -/
def fetch32 (B : Bytes) (i : Nat) : Option U32 :=
  match B.drop i with
  | b0 :: b1 :: b2 :: b3 :: _ =>
    some (b0.setWidth 32 ||| b1.setWidth 32 <<< 8 ||| b2.setWidth 32 <<< 16 ||| b3.setWidth 32 <<< 24)
  | _ => none

/-- `Fetch64(B, i)`, little-endian; `none` when it would read outside `B` (R62, R67, R101). -/
def fetch64 (B : Bytes) (i : Nat) : Option U64 :=
  match B.drop i with
  | b0 :: b1 :: b2 :: b3 :: b4 :: b5 :: b6 :: b7 :: _ =>
    some (b0.setWidth 64 + b1.setWidth 64 <<< 8 + b2.setWidth 64 <<< 16 + b3.setWidth 64 <<< 24
      + b4.setWidth 64 <<< 32 + b5.setWidth 64 <<< 40 + b6.setWidth 64 <<< 48
      + b7.setWidth 64 <<< 56)
  | _ => none

/-- `Rotate32(v, r)`, a right rotate, for `r < 32` (R103). -/
def rotate32 (v : U32) (r : Nat) : U32 :=
  if r = 0 then v else v >>> r ||| v <<< (32 - r)

/-- `Rotate64(v, r)`, a right rotate, for `r < 64` (R104). -/
def rotate64 (v : U64) (r : Nat) : U64 :=
  if r = 0 then v else v >>> r ||| v <<< (64 - r)

/-- `Bswap32(v)` (R105). -/
def bswap32 (v : U32) : U32 :=
  (v.extractLsb' 0 8).setWidth 32 <<< 24 ||| (v.extractLsb' 8 8).setWidth 32 <<< 16
    ||| (v.extractLsb' 16 8).setWidth 32 <<< 8 ||| (v.extractLsb' 24 8).setWidth 32

/-- `Bswap64(v)`; its eight fields are disjoint, so the sum of R106 is written as an or (R106). -/
def bswap64 (v : U64) : U64 :=
  (v.extractLsb' 0 8).setWidth 64 <<< 56 ||| (v.extractLsb' 8 8).setWidth 64 <<< 48
    ||| (v.extractLsb' 16 8).setWidth 64 <<< 40 ||| (v.extractLsb' 24 8).setWidth 64 <<< 32
    ||| (v.extractLsb' 32 8).setWidth 64 <<< 24 ||| (v.extractLsb' 40 8).setWidth 64 <<< 16
    ||| (v.extractLsb' 48 8).setWidth 64 <<< 8 ||| (v.extractLsb' 56 8).setWidth 64

/-- `Fmix(h)` (R107). -/
def fmix (h : U32) : U32 :=
  let h := h ^^^ (h >>> 16)
  let h := h * fmixMul1
  let h := h ^^^ (h >>> 13)
  let h := h * fmixMul2
  h ^^^ (h >>> 16)

/-- `Mur(a, h)` (R108). -/
def mur (a h : U32) : U32 :=
  let a := a * c1
  let a := rotate32 a 17
  let a := a * c2
  let h := h ^^^ a
  let h := rotate32 h 19
  h * 5 + murAdd

/-- `ShiftMix(x)` (R109). -/
def shiftMix (x : U64) : U64 := x ^^^ (x >>> 47)

/-- `HashLen16M(u, v, mul)` (R110). -/
def hashLen16M (u v mul : U64) : U64 :=
  let a := (u ^^^ v) * mul
  let a := a ^^^ (a >>> 47)
  let b := (v ^^^ a) * mul
  let b := b ^^^ (b >>> 47)
  b * mul

/-- `HashLen16(u, v)` (R111). -/
def hashLen16 (u v : U64) : U64 := hashLen16M u v kMul

/-- `Tweak32(x)` (R112). -/
def tweak32 (x : U32) : U32 := ~~~(bswap32 (x * c1))

/-- `Tweak64(x)` (R113). -/
def tweak64 (x : U64) : U64 := ~~~(bswap64 (x * k1))

/-- `Tweak128((lo, hi))` (R114; 90_conflicts.md C7). -/
def tweak128 (p : U64 × U64) : U64 × U64 :=
  let y := tweak64 p.1
  let z := tweak64 p.2
  let y := y + z
  let z := z + y
  (y, z * k1)

end Sys2Proof.Machine
end

