-- ==== Sys2Proof/Machine/Operands.lean ====
section
/-! DEFINITION. Operand forms (30_encoding.md rule R81) and the columns of the opcode table
(rule R84): what each command reads, its capability gate and its domain. -/

namespace Sys2Proof.Machine

/-- A 32-bit operand or seed is the low half of its register (R33, R81). -/
def operand32 (v : U64) : U32 := trunc32 v

/-- A 32-bit rotate amount is bits 4:0 of its register (R81). -/
def rotateAmount32 (v : U64) : Nat := (v.extractLsb' 0 5).toNat

/-- A 64-bit rotate amount is bits 5:0 of its register (R81). -/
def rotateAmount64 (v : U64) : Nat := (v.extractLsb' 0 6).toNat

/-- What a command reads: the buffer (and with it SRC and LEN), and operand registers (R84). -/
structure ReadSet where
  buffer : Bool
  x0 : Bool
  x1 : Bool
  x2 : Bool
  x3 : Bool
  x4 : Bool
  x5 : Bool
  deriving DecidableEq, Repr

/-- The buffer, if `b`, and the operand registers X0 to X(k-1). -/
def readSet (b : Bool) (k : Nat) : ReadSet :=
  { buffer := b, x0 := decide (0 < k), x1 := decide (1 < k), x2 := decide (2 < k),
    x3 := decide (3 < k), x4 := decide (4 < k), x5 := decide (5 < k) }

/-- The "Reads" column of R84. -/
def instrReads : Instr → ReadSet
  | .nop => readSet false 0
  | .fetch32 => readSet true 0
  | .fetch64 => readSet true 0
  | .rot32 => readSet false 2
  | .rot64 => readSet false 2
  | .bswap32 => readSet false 1
  | .bswap64 => readSet false 1
  | .fmix => readSet false 1
  | .mur => readSet false 2
  | .shiftmix => readSet false 1
  | .hl16 => readSet false 2
  | .hl16m => readSet false 3
  | .tweak32 => readSet false 1
  | .tweak64 => readSet false 1
  | .tweak128 => readSet false 2
  | .naLen0to16 => readSet true 0
  | .naLen17to32 => readSet true 0
  | .naLen33to64 => readSet true 0
  | .weak32 => readSet false 6
  | .weak32m => readSet true 2
  | .xoH32 => readSet true 3
  | .xoLen33to64 => readSet true 0
  | .xoLen65to96 => readSet true 0
  | .uoH => readSet false 4
  | .mkLen0to4 => readSet true 1
  | .mkLen5to12 => readSet true 1
  | .mkLen13to24 => readSet true 1
  | .ccLen0to4 => readSet true 0
  | .ccLen5to12 => readSet true 0
  | .ccLen13to24 => readSet true 0
  | .ccCitymurmur => readSet true 2
  | .naH64 => readSet true 0
  | .naH64s => readSet true 1
  | .naH64ss => readSet true 2
  | .uoH64 => readSet true 0
  | .uoH64s => readSet true 1
  | .uoH64ss => readSet true 2
  | .xoH64 => readSet true 0
  | .xoH64s => readSet true 1
  | .xoH64ss => readSet true 2
  | .teH64 => readSet true 0
  | .teH64s => readSet true 1
  | .teH64ss => readSet true 2
  | .ntH32 => readSet true 0
  | .ntH32s => readSet true 1
  | .mkH32 => readSet true 0
  | .mkH32s => readSet true 1
  | .suH32 => readSet true 0
  | .suH32s => readSet true 1
  | .saH32 => readSet true 0
  | .saH32s => readSet true 1
  | .ccH32 => readSet true 0
  | .ccH32s => readSet true 1
  | .ccH128 => readSet true 0
  | .ccH128s => readSet true 2
  | .hash32 => readSet true 0
  | .hash32s => readSet true 1
  | .hash64 => readSet true 0
  | .hash64s => readSet true 1
  | .hash64ss => readSet true 2
  | .hash128 => readSet true 0
  | .hash128s => readSet true 2
  | .fp32 => readSet true 0
  | .fp64 => readSet true 0
  | .fp128 => readSet true 0

/-- The "Gate" column of R84: a HASH command's gate is that of the family its selector names
(60_exceptions.md rule R342). -/
def instrGate (c : CoreConfig) : Instr → CapSet
  | .nop => noGate
  | .fetch32 => noGate
  | .fetch64 => noGate
  | .rot32 => noGate
  | .rot64 => noGate
  | .bswap32 => noGate
  | .bswap64 => noGate
  | .fmix => noGate
  | .mur => noGate
  | .shiftmix => noGate
  | .hl16 => noGate
  | .hl16m => noGate
  | .tweak32 => noGate
  | .tweak64 => noGate
  | .tweak128 => noGate
  | .naLen0to16 => noGate
  | .naLen17to32 => noGate
  | .naLen33to64 => noGate
  | .weak32 => noGate
  | .weak32m => noGate
  | .xoH32 => noGate
  | .xoLen33to64 => noGate
  | .xoLen65to96 => noGate
  | .uoH => noGate
  | .mkLen0to4 => noGate
  | .mkLen5to12 => noGate
  | .mkLen13to24 => noGate
  | .ccLen0to4 => noGate
  | .ccLen5to12 => noGate
  | .ccLen13to24 => noGate
  | .ccCitymurmur => noGate
  | .naH64 => noGate
  | .naH64s => noGate
  | .naH64ss => noGate
  | .uoH64 => noGate
  | .uoH64s => noGate
  | .uoH64ss => noGate
  | .xoH64 => noGate
  | .xoH64s => noGate
  | .xoH64ss => noGate
  | .teH64 => teGate
  | .teH64s => teGate
  | .teH64ss => teGate
  | .ntH32 => teGate
  | .ntH32s => teGate
  | .mkH32 => noGate
  | .mkH32s => noGate
  | .suH32 => suGate
  | .suH32s => suGate
  | .saH32 => saGate
  | .saH32s => saGate
  | .ccH32 => noGate
  | .ccH32s => noGate
  | .ccH128 => noGate
  | .ccH128s => noGate
  | .hash32 => sel32Gate c.sel32
  | .hash32s => sel32Gate c.sel32
  | .hash64 => sel64Gate c.sel64
  | .hash64s => sel64sGate c.sel64s
  | .hash64ss => sel64sGate c.sel64s
  | .hash128 => noGate
  | .hash128s => noGate
  | .fp32 => noGate
  | .fp64 => noGate
  | .fp128 => noGate

/-- The "Domain" column of R84: the LEN values, as numbers, that the command accepts. -/
def instrDomain (n : Nat) : Instr → Bool
  | .nop => true
  | .fetch32 => decide (4 ≤ n)
  | .fetch64 => decide (8 ≤ n)
  | .rot32 => true
  | .rot64 => true
  | .bswap32 => true
  | .bswap64 => true
  | .fmix => true
  | .mur => true
  | .shiftmix => true
  | .hl16 => true
  | .hl16m => true
  | .tweak32 => true
  | .tweak64 => true
  | .tweak128 => true
  | .naLen0to16 => decide (n ≤ 16)
  | .naLen17to32 => decide (17 ≤ n ∧ n ≤ 32)
  | .naLen33to64 => decide (33 ≤ n ∧ n ≤ 64)
  | .weak32 => true
  | .weak32m => decide (32 ≤ n)
  | .xoH32 => decide (16 ≤ n)
  | .xoLen33to64 => decide (33 ≤ n ∧ n ≤ 64)
  | .xoLen65to96 => decide (65 ≤ n ∧ n ≤ 96)
  | .uoH => true
  | .mkLen0to4 => decide (n ≤ 4)
  | .mkLen5to12 => decide (5 ≤ n ∧ n ≤ 12)
  | .mkLen13to24 => decide (13 ≤ n ∧ n ≤ 24)
  | .ccLen0to4 => decide (n ≤ 4)
  | .ccLen5to12 => decide (5 ≤ n ∧ n ≤ 12)
  | .ccLen13to24 => decide (13 ≤ n ∧ n ≤ 24)
  | .ccCitymurmur => decide (n ≤ 127)
  | .naH64 => true
  | .naH64s => true
  | .naH64ss => true
  | .uoH64 => true
  | .uoH64s => true
  | .uoH64ss => true
  | .xoH64 => true
  | .xoH64s => true
  | .xoH64ss => true
  | .teH64 => true
  | .teH64s => true
  | .teH64ss => true
  | .ntH32 => true
  | .ntH32s => true
  | .mkH32 => true
  | .mkH32s => true
  | .suH32 => true
  | .suH32s => true
  | .saH32 => true
  | .saH32s => true
  | .ccH32 => true
  | .ccH32s => true
  | .ccH128 => true
  | .ccH128s => true
  | .hash32 => true
  | .hash32s => true
  | .hash64 => true
  | .hash64s => true
  | .hash64ss => true
  | .hash128 => true
  | .hash128s => true
  | .fp32 => true
  | .fp64 => true
  | .fp128 => true

/-- The command reads a register that has not been written since reset: what the spec calls
`Unwritten` (R33, R341). The model names the case and runs the command (notes/assumptions/2.md). -/
def readsUnwritten (i : Instr) (s : State) : Bool :=
  let r := instrReads i
  let w := s.written
  (r.buffer && !(w.src && w.len)) || (r.x0 && !w.x0) || (r.x1 && !w.x1) || (r.x2 && !w.x2)
    || (r.x3 && !w.x3) || (r.x4 && !w.x4) || (r.x5 && !w.x5)

end Sys2Proof.Machine
end

