-- ==== Sys2Proof/Machine/Window.lean ====
section
/-! DEFINITION. The register window's layout (10_state.md rule R32) and which host accesses have a
meaning (rule R41): aligned 64-bit accesses to the window, and no others. -/

namespace Sys2Proof.Machine

/-- A register's byte offset from REG_BASE (R32). -/
def regOffset : Reg → Nat
  | .cmd => 0x00
  | .src => 0x08
  | .len => 0x10
  | .x0 => 0x18
  | .x1 => 0x20
  | .x2 => 0x28
  | .x3 => 0x30
  | .x4 => 0x38
  | .x5 => 0x40
  | .r0 => 0x48
  | .r1 => 0x50
  | .status => 0x58
  | .cap => 0x60
  | .config => 0x68
  | .reserved k => 0x70 + 8 * k.val

/-- The register at a byte offset, if the offset is an aligned one of the window (R32, R41). -/
def regAt (off : Nat) : Option Reg :=
  if off % 8 = 0 then
    match off / 8 with
    | 0 => some .cmd
    | 1 => some .src
    | 2 => some .len
    | 3 => some .x0
    | 4 => some .x1
    | 5 => some .x2
    | 6 => some .x3
    | 7 => some .x4
    | 8 => some .x5
    | 9 => some .r0
    | 10 => some .r1
    | 11 => some .status
    | 12 => some .cap
    | 13 => some .config
    | k => if h : k - 14 < 18 then some (.reserved ⟨k - 14, h⟩) else none
  else none

/-- The register a host access of `bytes` bytes at `addr` reaches; `none` when it is not an aligned
64-bit access to the window at `base` (R41; 93_implementation_defined.md U16). -/
def windowReg (base addr bytes : Nat) : Option Reg :=
  if bytes = 8 ∧ base ≤ addr then regAt (addr - base) else none

/-- The register a `SET` line names (R88). -/
def operandReg : OperandReg → Reg
  | .src => .src
  | .len => .len
  | .x0 => .x0
  | .x1 => .x1
  | .x2 => .x2
  | .x3 => .x3
  | .x4 => .x4
  | .x5 => .x5

end Sys2Proof.Machine
end

