-- ==== Sys2Proof/Machine/Ops.lean ====
section
/-! DEFINITION. The named operations over memory and registers: the buffer read (20_memory.md rule
R61), host reads and writes of the window (10_state.md rules R32 to R41), reset
(70_reset_and_hazards.md rule R370), completion (30_encoding.md rule R87) and the issue of a command
(rule R86), which every command's meaning is an application of. -/

namespace Sys2Proof.Machine

/-! Input memory -/

/-- The byte at an address; `none` where the launch memory does not admit the address (R66). -/
def Memory.read : Memory → Nat → Option Byte
  | [], _ => none
  | c :: m, a => if c.1 = a then some c.2 else Memory.read m a

/-- Memory with byte `b` placed at address `a`, which it then admits: how a launch memory is built
(R66). A host store to a running machine is `Memory.store`. -/
def Memory.write : Memory → Nat → Byte → Memory
  | [], a, b => [(a, b)]
  | c :: m, a, b =>
    if a < c.1 then (a, b) :: c :: m
    else if a = c.1 then (a, b) :: m
    else c :: Memory.write m a b

/-- Memory with the bytes `bs` placed from address `a` on. -/
def Memory.writeBytes (m : Memory) (a : Nat) : Bytes → Memory
  | [] => m
  | b :: bs => Memory.writeBytes (Memory.write m a b) (a + 1) bs

/-- A host store of byte `b` to address `a` (R68). Which addresses are admitted is the launch memory's
and no store changes it (R66): the byte of an admitted address becomes `b`, and a store to any other
address leaves the memory as it is (notes/assumptions/6.md). -/
def Memory.store (m : Memory) (a : Nat) (b : Byte) : Memory :=
  m.map (fun c => (c.1, if c.1 = a then b else c.2))

/-- The canonical form: addresses strictly rising, inside the 2^64-byte space (R60). No entry can
equal what an unlisted address reads as, since that is no value. -/
abbrev Memory.wf (m : Memory) : Prop :=
  m.Pairwise (fun c d => c.1 < d.1) ∧ ∀ c ∈ m, c.1 < 2 ^ 64

/-- The bytes at `a` to `a + n - 1`, if the memory admits every one of them (R61 (b)). -/
def Memory.readBytes (m : Memory) (a : Nat) : Nat → Option Bytes
  | 0 => some []
  | n + 1 =>
    match Memory.read m a with
    | none => none
    | some b =>
      match Memory.readBytes m (a + 1) n with
      | none => none
      | some bs => some (b :: bs)

/-- A byte of `a` to `a + n - 1` lies in a range whose reads have side effects (R65). -/
def touchesSideEffects (ranges : List MemRange) (a n : Nat) : Bool :=
  ranges.any (fun r => decide (max r.base a < min (r.base + r.size) (a + n)))

/-- `MemRead(SRC, LEN)` (R61), whose value is `.next B`. It is stuck when the buffer wraps or a byte
is not admitted, and refused in side-effect memory (R65; notes/assumptions/7.md and 10.md). -/
def readBuffer (s : State) : Host.Outcome Bytes Fault Refusal :=
  if 2 ^ 64 < s.src.toNat + s.len.toNat then .fault (.stuck .bufferWraps)
  else if touchesSideEffects s.cfg.sideEffects s.src.toNat s.len.toNat then
    .refused .sideEffectMemory
  else
    match Memory.readBytes s.mem s.src.toNat s.len.toNat with
    | some B => .next B
    | none => .fault (.stuck .bufferNotAdmitted)

/-- The buffer of a command: `MemRead(SRC, LEN)` if it reads the buffer, and nothing if not (R86). -/
def commandBuffer (i : Instr) (s : State) : Host.Outcome Bytes Fault Refusal :=
  if (instrReads i).buffer then readBuffer s else .next []

/-! The register window -/

/-- What a host load of a register returns (R32, R40, R41). -/
def readReg (r : Reg) (s : State) : U64 :=
  match r with
  | .cmd => 0
  | .src => s.src
  | .len => s.len
  | .x0 => s.x0
  | .x1 => s.x1
  | .x2 => s.x2
  | .x3 => s.x3
  | .x4 => s.x4
  | .x5 => s.x5
  | .r0 => s.r0
  | .r1 => s.r1
  | .status => statusWord s
  | .cap => capWord s.cfg.claimcap
  | .config => configWord s.cfg
  | .reserved _ => 0

/-- What a host store to a register other than CMD does: SRC, LEN and X0 to X5 take the value, and
every other store is ignored (R32, R41). A store to CMD issues a command: `issueWord`. -/
def writeReg (r : Reg) (v : U64) (s : State) : State :=
  match r with
  | .src => { s with src := v, written := { s.written with src := true } }
  | .len => { s with len := v, written := { s.written with len := true } }
  | .x0 => { s with x0 := v, written := { s.written with x0 := true } }
  | .x1 => { s with x1 := v, written := { s.written with x1 := true } }
  | .x2 => { s with x2 := v, written := { s.written with x2 := true } }
  | .x3 => { s with x3 := v, written := { s.written with x3 := true } }
  | .x4 => { s with x4 := v, written := { s.written with x4 := true } }
  | .x5 => { s with x5 := v, written := { s.written with x5 := true } }
  | .cmd => s
  | .r0 => s
  | .r1 => s
  | .status => s
  | .cap => s
  | .config => s
  | .reserved _ => s

/-! Reset -/

/-- A reset of the engine (R370): STATUS is 0 and every other register is unwritten, with the value
notes/assumptions/1.md names. The configuration, the input memory and the host are unchanged. It is
the only way out of a fault (R347). -/
def resetEngine (s : State) : State :=
  { s with src := 0, len := 0, x0 := 0, x1 := 0, x2 := 0, x3 := 0, x4 := 0, x5 := 0, r0 := 0,
           r1 := 0, done := false, fault := false, fcode := 0, lastOpc := 0,
           written := Written.nothing }

/-! Completion and issue -/

/-- A command's result (10_state.md rule R36). -/
inductive Result where
  /-- NOP's: no result register is written (R87). -/
  | none
  /-- A 32-bit result. -/
  | w32 (h : U32)
  /-- A 64-bit result. -/
  | w64 (h : U64)
  /-- A 128-bit result (lo, hi), or a weak pair (first, second). -/
  | pair (p : U64 × U64)
  deriving DecidableEq, Repr

/-- R0 and R1 take a result. -/
def writeResult (a b : U64) (s : State) : State :=
  { s with r0 := a, r1 := b, written := { s.written with r0 := true, r1 := true } }

/-- Completion (R36, R87): the result goes to R0 and R1 by its width, and DONE is 1. -/
def complete (r : Result) (s : State) : State :=
  match r with
  | .none => { s with done := true }
  | .w32 h => { writeResult (zext64 h) 0 s with done := true }
  | .w64 h => { writeResult h 0 s with done := true }
  | .pair p => { writeResult p.1 p.2 s with done := true }

/-- The issue of a listed command `i` (R86), in the order R345 gives: ignored while FAULT is 1; then
MISCONFIG, DOMAIN, the buffer read, and completion with the result `body` computes from the buffer
(`[]` when the command reads none). A `body` without a value fetched outside the buffer: the model
fault InternalRange (R341). -/
def issue (i : Instr) (s : State) (body : Bytes → Option Result) : StepResult :=
  if s.fault then .next s
  else if !capSubset (instrGate s.cfg i) s.cfg.hwcap then
    .next (raiseFault .misconfig (startIssue i.opc s))
  else if !instrDomain s.len.toNat i then
    .next (raiseFault .domain (startIssue i.opc s))
  else
    match commandBuffer i s with
    | .fault r => .fault r
    | .refused r => .refused r
    | .next B =>
      match body B with
      | some r => .next (complete r (startIssue i.opc s))
      | none => .fault .internalRange

end Sys2Proof.Machine
end

