-- ==== Sys2Proof/Machine/Mk.lean ====
section
/-! DEFINITION. Family MK, the 32-bit Murmur baseline (44_family_mk.md rules R240 to R246). -/

namespace Sys2Proof.Machine

/-- The byte loop of `MK.Len0to4`, with its variables `b` and `c`; each byte is signed (R240). -/
def mkBytes : Bytes → U32 → U32 → U32 × U32
  | [], b, c => (b, c)
  | v :: bs, b, c =>
    let b := b * c1 + sext32 v
    let c := c ^^^ b
    mkBytes bs b c

/-- `MK.Len0to4(B, seed)` (R240). -/
def mkLen0to4 (B : Bytes) (seed : U32) : U32 :=
  let r := mkBytes B seed 9
  fmix (mur r.1 (mur (nat32 B.length) r.2))

/-- `MK.Len5to12(B, seed)` (R241). -/
def mkLen5to12 (B : Bytes) (seed : U32) : Option U32 := do
  let n := B.length
  let a := nat32 n
  let b := nat32 n * 5
  let c : U32 := 9
  let d := b + seed
  let f0 ← fetch32 B 0
  let a := a + f0
  let f1 ← fetch32 B (n - 4)
  let b := b + f1
  let f2 ← fetch32 B ((n >>> 1) &&& 4)
  let c := c + f2
  return fmix (seed ^^^ mur c (mur b (mur a d)))

/-- `MK.Len13to24(B, seed)` (R242). -/
def mkLen13to24 (B : Bytes) (seed : U32) : Option U32 := do
  let n := B.length
  let a ← fetch32 B ((n >>> 1) - 4)
  let b ← fetch32 B 4
  let c ← fetch32 B (n - 8)
  let d ← fetch32 B (n >>> 1)
  let e ← fetch32 B 0
  let f ← fetch32 B (n - 4)
  let h := d * c1 + nat32 n + seed
  let a := rotate32 a 12 + f
  let h := mur c h + a
  let a := rotate32 a 3 + c
  let h := mur e h + a
  let a := rotate32 (a + f) 12 + d
  let h := mur (b ^^^ seed) h + a
  return fmix h

/-- A tail word of the 32-bit long paths, scrambled (R243, and 46_family_cc.md rule R283). -/
def mixWord (w : U32) : U32 := rotate32 (w * c1) 17 * c2

/-- `h <- h ^ a; h <- Rotate32(h, r); h <- h * 5 + 0xE6546B64`, the mixing step of the 32-bit
long paths (R243, R283). -/
def mixInto (h a : U32) (r : Nat) : U32 := rotate32 (h ^^^ a) r * 5 + murAdd

/-- The three accumulators of the 32-bit long paths (R243; 90_conflicts.md C2). -/
structure Acc32 where
  h : U32
  g : U32
  f : U32
  deriving DecidableEq, Repr

/-- The fold of the five tail words into `h`, `g` and `f`, before its last step, which is each
family's own: the result's third component is `f + a4` (R243, R283). -/
def longStart32 (B : Bytes) : Option Acc32 := do
  let n := B.length
  let h := nat32 n
  let g := c1 * nat32 n
  let f := g
  let t0 ← fetch32 B (n - 4)
  let a0 := mixWord t0
  let t1 ← fetch32 B (n - 8)
  let a1 := mixWord t1
  let t2 ← fetch32 B (n - 16)
  let a2 := mixWord t2
  let t3 ← fetch32 B (n - 12)
  let a3 := mixWord t3
  let t4 ← fetch32 B (n - 20)
  let a4 := mixWord t4
  let h := mixInto h a0 19
  let h := mixInto h a2 19
  let g := mixInto g a1 19
  let g := mixInto g a3 19
  return { h := h, g := g, f := f + a4 }

/-- The last fold of the 32-bit long paths (R243, R283). -/
def longEnd32 (s : Acc32) : U32 :=
  let g := rotate32 s.g 11 * c1
  let g := rotate32 g 17 * c1
  let f := rotate32 s.f 11 * c1
  let f := rotate32 f 17 * c1
  let h := rotate32 (s.h + g) 19
  let h := h * 5 + murAdd
  let h := rotate32 h 17 * c1
  let h := rotate32 (h + f) 19
  let h := h * 5 + murAdd
  rotate32 h 17 * c1

/-- One 20-byte block at offset `p` of MK's loop (R243). -/
def mkBlock (B : Bytes) (p : Nat) (s : Acc32) : Option Acc32 := do
  let a ← fetch32 B p
  let b ← fetch32 B (p + 4)
  let c ← fetch32 B (p + 8)
  let d ← fetch32 B (p + 12)
  let e ← fetch32 B (p + 16)
  let h := s.h + a
  let g := s.g + b
  let f := s.f + c
  let h := mur d h + e
  let g := mur c g + a
  let f := mur (b + e * c1) f + d
  let f := f + g
  let g := g + f
  return { h := h, g := g, f := f }

/-- `iters` blocks from offset `p` on. -/
def mkBlocks (B : Bytes) : Nat → Nat → Acc32 → Option Acc32
  | 0, _, s => some s
  | iters + 1, p, s => do
    let s' ← mkBlock B p s
    mkBlocks B iters (p + 20) s'

/-- MK's long path, for more than 24 bytes: `(LEN - 1) / 20` blocks (R243). -/
def mkLong32 (B : Bytes) : Option U32 := do
  let s ← longStart32 B
  let f := rotate32 s.f 19 + 113
  let s' ← mkBlocks B ((B.length - 1) / 20) 0 { s with f := f }
  return longEnd32 s'

/-- `MK.Hash32(B)` (R243). -/
def mkHash32 (B : Bytes) : Option U32 :=
  if B.length ≤ 4 then some (mkLen0to4 B 0)
  else if B.length ≤ 12 then mkLen5to12 B 0
  else if B.length ≤ 24 then mkLen13to24 B 0
  else mkLong32 B

/-- The seeded kernels of 24 bytes and fewer, which MK, SU, SA and CC share (R244; 45_family_su_sa.md
rules R262 and R264; 46_family_cc.md rule R284). -/
def mkSeededSmall (B : Bytes) (seed : U32) : Option U32 :=
  if 13 ≤ B.length then mkLen13to24 B (seed * c1)
  else if 5 ≤ B.length then mkLen5to12 B seed
  else some (mkLen0to4 B seed)

/-- `MK.Hash32WithSeed(B, seed)` (R244; 90_conflicts.md C4). -/
def mkHash32WithSeed (B : Bytes) (seed : U32) : Option U32 :=
  if B.length ≤ 24 then mkSeededSmall B seed
  else do
    let h ← mkLen13to24 (B.take 24) (seed ^^^ nat32 B.length)
    let t ← mkHash32 (B.drop 24)
    return mur (t + seed) h

/-- MK_LEN0TO4 (R240). -/
def execMkLen0to4 (s : State) : StepResult :=
  issue .mkLen0to4 s (fun B => some (.w32 (mkLen0to4 B (operand32 s.x0))))

/-- MK_LEN5TO12 (R241). -/
def execMkLen5to12 (s : State) : StepResult :=
  issue .mkLen5to12 s (fun B => (mkLen5to12 B (operand32 s.x0)).map .w32)

/-- MK_LEN13TO24 (R242): the seed as it is. -/
def execMkLen13to24 (s : State) : StepResult :=
  issue .mkLen13to24 s (fun B => (mkLen13to24 B (operand32 s.x0)).map .w32)

/-- MK_H32 (R245). -/
def execMkH32 (s : State) : StepResult := issue .mkH32 s (fun B => (mkHash32 B).map .w32)

/-- MK_H32S (R246). -/
def execMkH32s (s : State) : StepResult :=
  issue .mkH32s s (fun B => (mkHash32WithSeed B (operand32 s.x0)).map .w32)

end Sys2Proof.Machine
end

