-- ==== Sys2Proof/Machine/Kernels.lean ====
section
/-! DEFINITION. The length kernels the 64-bit families share, and the weak 128-bit accumulator step
(41_kernels.md rules R141 to R145). A datapath's value is `none` only where a fetch would leave the
buffer, which no length of the kernel's bucket reaches (20_memory.md rule R67). -/

namespace Sys2Proof.Machine

/-- `NA.Len0to16(B)` (R141). -/
def naLen0to16 (B : Bytes) : Option U64 :=
  let n := B.length
  if 8 ≤ n then do
    let mul := k2 + 2 * nat64 n
    let w ← fetch64 B 0
    let a := w + k2
    let b ← fetch64 B (n - 8)
    let c := rotate64 b 37 * mul + a
    let d := (rotate64 a 25 + b) * mul
    return hashLen16M c d mul
  else if 4 ≤ n then do
    let mul := k2 + 2 * nat64 n
    let w ← fetch32 B 0
    let a := zext64 w
    let t ← fetch32 B (n - 4)
    return hashLen16M (nat64 n + (a <<< 3)) (zext64 t) mul
  else if 0 < n then do
    let a ← B[0]?
    let b ← B[n >>> 1]?
    let c ← B[n - 1]?
    let y := a.setWidth 32 + (b.setWidth 32 <<< 8)
    let z := nat32 n + (c.setWidth 32 <<< 2)
    return shiftMix ((zext64 y * k2) ^^^ (zext64 z * k0)) * k2
  else some k2

/-- `NA.Len17to32(B)` (R142). -/
def naLen17to32 (B : Bytes) : Option U64 := do
  let n := B.length
  let mul := k2 + 2 * nat64 n
  let w0 ← fetch64 B 0
  let a := w0 * k1
  let b ← fetch64 B 8
  let w2 ← fetch64 B (n - 8)
  let c := w2 * mul
  let w3 ← fetch64 B (n - 16)
  let d := w3 * k2
  return hashLen16M (rotate64 (a + b) 43 + rotate64 c 30 + d) (a + rotate64 (b + k2) 18 + c) mul

/-- `NA.Len33to64(B)` (R143). -/
def naLen33to64 (B : Bytes) : Option U64 := do
  let n := B.length
  let mul := k2 + 2 * nat64 n
  let w0 ← fetch64 B 0
  let a := w0 * k2
  let b ← fetch64 B 8
  let w2 ← fetch64 B (n - 8)
  let c := w2 * mul
  let w3 ← fetch64 B (n - 16)
  let d := w3 * k2
  let y := rotate64 (a + b) 43 + rotate64 c 30 + d
  let z := hashLen16M y (a + rotate64 (b + k2) 18 + c) mul
  let w4 ← fetch64 B 16
  let e := w4 * mul
  let f ← fetch64 B 24
  let w6 ← fetch64 B (n - 32)
  let g := (y + w6) * mul
  let w7 ← fetch64 B (n - 24)
  let h := (z + w7) * mul
  return hashLen16M (rotate64 (e + f) 43 + rotate64 g 30 + h) (e + rotate64 (f + a) 18 + g) mul

/-- `Weak32(w, x, y, z, a, b)` (R144). -/
def weak32 (w x y z a b : U64) : U64 × U64 :=
  let a := a + w
  let b := rotate64 (b + a + z) 21
  let c := a
  let a := a + x
  let a := a + y
  let b := b + rotate64 a 44
  (a + z, b + c)

/-- `WeakMem(B, i, a, b)` (R145). -/
def weakMem (B : Bytes) (i : Nat) (a b : U64) : Option (U64 × U64) := do
  let w ← fetch64 B i
  let x ← fetch64 B (i + 8)
  let y ← fetch64 B (i + 16)
  let z ← fetch64 B (i + 24)
  return weak32 w x y z a b

/-- NA_LEN0TO16 (R141). -/
def execNaLen0to16 (s : State) : StepResult :=
  issue .naLen0to16 s (fun B => (naLen0to16 B).map .w64)

/-- NA_LEN17TO32 (R142). -/
def execNaLen17to32 (s : State) : StepResult :=
  issue .naLen17to32 s (fun B => (naLen17to32 B).map .w64)

/-- NA_LEN33TO64 (R143). -/
def execNaLen33to64 (s : State) : StepResult :=
  issue .naLen33to64 s (fun B => (naLen33to64 B).map .w64)

/-- WEAK32 (R144): its pair is no hash result (R146). -/
def execWeak32 (s : State) : StepResult :=
  issue .weak32 s (fun _ => some (.pair (weak32 s.x0 s.x1 s.x2 s.x3 s.x4 s.x5)))

/-- WEAK32M (R145): its pair is no hash result (R146). -/
def execWeak32m (s : State) : StepResult :=
  issue .weak32m s (fun B => (weakMem B 0 s.x0 s.x1).map .pair)

end Sys2Proof.Machine
end

