-- ==== Sys2Proof/Machine/Na.lean ====
section
/-! DEFINITION. Family NA, the 64-bit baseline (42_family_na_uo_xo.md rules R170 to R176). -/

namespace Sys2Proof.Machine

/-- The accumulators (x, y, z, v, w) of NA's block loop, with `v` and `w` the pairs
`(v1, v2)` and `(w1, w2)` (R171). -/
structure NaAcc where
  x : U64
  y : U64
  z : U64
  v1 : U64
  v2 : U64
  w1 : U64
  w2 : U64
  deriving DecidableEq, Repr

/-- One 64-byte block at offset `p` of NA's loop (R171), which is also the block of CC's 128-bit
loop (46_family_cc.md rule R286). -/
def naBlock (B : Bytes) (p : Nat) (s : NaAcc) : Option NaAcc := do
  let f8 ← fetch64 B (p + 8)
  let x := rotate64 (s.x + s.y + s.v1 + f8) 37 * k1
  let f48 ← fetch64 B (p + 48)
  let y := rotate64 (s.y + s.v2 + f48) 42 * k1
  let x := x ^^^ s.w2
  let f40 ← fetch64 B (p + 40)
  let y := y + s.v1 + f40
  let z := rotate64 (s.z + s.w1) 33 * k1
  let v ← weakMem B p (s.v2 * k1) (x + s.w1)
  let f16 ← fetch64 B (p + 16)
  let w ← weakMem B (p + 32) (z + s.w2) (y + f16)
  return { x := z, y := y, z := x, v1 := v.1, v2 := v.2, w1 := w.1, w2 := w.2 }

/-- `iters` blocks from offset `p` on. -/
def naBlocks (B : Bytes) : Nat → Nat → NaAcc → Option NaAcc
  | 0, _, s => some s
  | iters + 1, p, s => do
    let s' ← naBlock B p s
    naBlocks B iters (p + 64) s'

/-- The accumulators before NA's first block (R171). -/
def naStart (f0 : U64) : NaAcc :=
  let seed : U64 := 81
  let x := seed
  let y := seed * k1 + 113
  let z := shiftMix (y * k2 + 113) * k2
  { x := x * k2 + f0, y := y, z := z, v1 := 0, v2 := 0, w1 := 0, w2 := 0 }

/-- NA's last step, over the last 64 bytes (R171). -/
def naTail (B : Bytes) (s : NaAcc) : Option U64 := do
  let n := B.length
  let mul := k1 + ((s.z &&& 0xFF) <<< 1)
  let p := n - 64
  let w1 := s.w1 + nat64 ((n - 1) &&& 63)
  let v1 := s.v1 + w1
  let w1 := w1 + v1
  let f8 ← fetch64 B (p + 8)
  let x := rotate64 (s.x + s.y + v1 + f8) 37 * mul
  let f48 ← fetch64 B (p + 48)
  let y := rotate64 (s.y + s.v2 + f48) 42 * mul
  let x := x ^^^ (s.w2 * 9)
  let f40 ← fetch64 B (p + 40)
  let y := y + v1 * 9 + f40
  let z := rotate64 (s.z + w1) 33 * mul
  let v ← weakMem B p (s.v2 * mul) (x + w1)
  let f16 ← fetch64 B (p + 16)
  let w ← weakMem B (p + 32) (z + s.w2) (y + f16)
  -- (z, x) <- (x, z)
  return hashLen16M (hashLen16M v.1 w.1 mul + shiftMix y * k0 + x) (hashLen16M v.2 w.2 mul + z) mul

/-- `NA.Long64(B)`, for more than 64 bytes: `(n - 1) / 64` blocks, then the last 64 bytes (R171). -/
def naLong64 (B : Bytes) : Option U64 := do
  let f0 ← fetch64 B 0
  let s ← naBlocks B ((B.length - 1) / 64) 0 (naStart f0)
  naTail B s

/-- `NA.Hash64(B)` (R170). -/
def naHash64 (B : Bytes) : Option U64 :=
  if B.length ≤ 16 then naLen0to16 B
  else if B.length ≤ 32 then naLen17to32 B
  else if B.length ≤ 64 then naLen33to64 B
  else naLong64 B

/-- `NA.Hash64WithSeeds(B, s0, s1)` (R172). -/
def naHash64WithSeeds (B : Bytes) (s0 s1 : U64) : Option U64 := do
  let h ← naHash64 B
  return hashLen16 (h - s0) s1

/-- `NA.Hash64WithSeed(B, seed)`: the absent first seed is k2 (R173). -/
def naHash64WithSeed (B : Bytes) (seed : U64) : Option U64 := naHash64WithSeeds B k2 seed

/-- NA_H64 (R174). -/
def execNaH64 (s : State) : StepResult := issue .naH64 s (fun B => (naHash64 B).map .w64)

/-- NA_H64S (R175). -/
def execNaH64s (s : State) : StepResult :=
  issue .naH64s s (fun B => (naHash64WithSeed B s.x0).map .w64)

/-- NA_H64SS (R176). -/
def execNaH64ss (s : State) : StepResult :=
  issue .naH64ss s (fun B => (naHash64WithSeeds B s.x0 s.x1).map .w64)

end Sys2Proof.Machine
end

