-- ==== Sys2Proof/Machine/Cc.lean ====
section
/-! DEFINITION. Family CC, CityHash-compatible, in its 32-bit and 128-bit modes (46_family_cc.md
rules R280 to R291). -/

namespace Sys2Proof.Machine

/-- `CC.Len0to4(B)` (R280). -/
def ccLen0to4 (B : Bytes) : U32 := mkLen0to4 B 0

/-- `CC.Len5to12(B)` (R281). -/
def ccLen5to12 (B : Bytes) : Option U32 := do
  let n := B.length
  let a := nat32 n
  let b := nat32 n * 5
  let c : U32 := 9
  let d := b
  let f0 ← fetch32 B 0
  let a := a + f0
  let f1 ← fetch32 B (n - 4)
  let b := b + f1
  let f2 ← fetch32 B ((n >>> 1) &&& 4)
  let c := c + f2
  return fmix (mur c (mur b (mur a d)))

/-- `CC.Len13to24(B)` (R282). -/
def ccLen13to24 (B : Bytes) : Option U32 := do
  let n := B.length
  let a ← fetch32 B ((n >>> 1) - 4)
  let b ← fetch32 B 4
  let c ← fetch32 B (n - 8)
  let d ← fetch32 B (n >>> 1)
  let e ← fetch32 B 0
  let f ← fetch32 B (n - 4)
  let h := nat32 n
  return fmix (mur f (mur e (mur d (mur c (mur b (mur a h))))))

/-- One 20-byte block at offset `p` of CC's 32-bit loop (R283). -/
def ccBlock (B : Bytes) (p : Nat) (s : Acc32) : Option Acc32 := do
  let t0 ← fetch32 B p
  let b0 := mixWord t0
  let b1 ← fetch32 B (p + 4)
  let t2 ← fetch32 B (p + 8)
  let b2 := mixWord t2
  let t3 ← fetch32 B (p + 12)
  let b3 := mixWord t3
  let b4 ← fetch32 B (p + 16)
  let h := mixInto s.h b0 18
  let f := s.f + b1
  let f := rotate32 f 19
  let f := f * c1
  let g := s.g + b2
  let g := rotate32 g 18
  let g := g * 5 + murAdd
  let h := mixInto h (b3 + b1) 19
  let g := g ^^^ b4
  let g := bswap32 g * 5
  let h := h + b4 * 5
  let h := bswap32 h
  let f := f + b0
  -- (f, h) <- (h, f), then (f, g) <- (g, f)
  return { h := f, g := h, f := g }

/-- `iters` blocks from offset `p` on. -/
def ccBlocks (B : Bytes) : Nat → Nat → Acc32 → Option Acc32
  | 0, _, s => some s
  | iters + 1, p, s => do
    let s' ← ccBlock B p s
    ccBlocks B iters (p + 20) s'

/-- CC's 32-bit long path, for more than 24 bytes: `(LEN - 1) / 20` blocks (R283). -/
def ccLong32 (B : Bytes) : Option U32 := do
  let s ← longStart32 B
  let f := rotate32 s.f 19
  let f := f * 5 + murAdd
  let s' ← ccBlocks B ((B.length - 1) / 20) 0 { s with f := f }
  return longEnd32 s'

/-- `CC.Hash32(B)` (R283; 90_conflicts.md C10). -/
def ccHash32 (B : Bytes) : Option U32 :=
  if B.length ≤ 4 then some (ccLen0to4 B)
  else if B.length ≤ 12 then ccLen5to12 B
  else if B.length ≤ 24 then ccLen13to24 B
  else ccLong32 B

/-- `CC.Hash32WithSeed(B, seed)` (R284). -/
def ccHash32WithSeed (B : Bytes) (seed : U32) : Option U32 :=
  if B.length ≤ 24 then mkSeededSmall B seed
  else do
    let h ← mkLen13to24 (B.take 24) (seed ^^^ nat32 B.length)
    let t ← ccHash32 (B.drop 24)
    return mur (t + seed) h

/-- The variables of CityMurmur's loop (R285). -/
structure CityAcc where
  a : U64
  b : U64
  c : U64
  d : U64
  deriving DecidableEq, Repr

/-- One 16-byte step at offset `p` of CityMurmur's loop (R285). -/
def cityStep (S : Bytes) (p : Nat) (s : CityAcc) : Option CityAcc := do
  let f0 ← fetch64 S p
  let a := s.a ^^^ (shiftMix (f0 * k1) * k1)
  let a := a * k1
  let b := s.b ^^^ a
  let f8 ← fetch64 S (p + 8)
  let c := s.c ^^^ (shiftMix (f8 * k1) * k1)
  let c := c * k1
  let d := s.d ^^^ c
  return { a := a, b := b, c := c, d := d }

/-- `iters` steps from offset `p` on. -/
def citySteps (S : Bytes) : Nat → Nat → CityAcc → Option CityAcc
  | 0, _, s => some s
  | iters + 1, p, s => do
    let s' ← cityStep S p s
    citySteps S iters (p + 16) s'

/-- CityMurmur's branch for 16 bytes and fewer (R285). -/
def cityShort (S : Bytes) (lo hi : U64) : Option CityAcc := do
  let a := shiftMix (lo * k1) * k1
  let h ← naLen0to16 S
  let c := hi * k1 + h
  let t ← if 8 ≤ S.length then fetch64 S 0 else some c
  let d := shiftMix (a + t)
  return { a := a, b := hi, c := c, d := d }

/-- CityMurmur's branch for more than 16 bytes: `ceil((m - 16) / 16) = (m - 1) / 16` steps (R285). -/
def cityLong (S : Bytes) (lo hi : U64) : Option CityAcc := do
  let m := S.length
  let f0 ← fetch64 S (m - 8)
  let c := hashLen16 (f0 + k1) lo
  let f1 ← fetch64 S (m - 16)
  let d := hashLen16 (hi + nat64 m) (c + f1)
  let a := lo + d
  citySteps S ((m - 1) / 16) 0 { a := a, b := hi, c := c, d := d }

/-- `CC.CityMurmur(S, (lo, hi))` (R285). -/
def cityMurmur (S : Bytes) (lo hi : U64) : Option (U64 × U64) := do
  let s ← if S.length ≤ 16 then cityShort S lo hi else cityLong S lo hi
  let a := hashLen16 s.a s.c
  let b := hashLen16 s.d s.b
  return (a ^^^ b, hashLen16 b a)

/-- The accumulators before the first block of the 128-bit loop (R286). -/
def city128Start (S : Bytes) (lo hi : U64) : Option NaAcc := do
  let x := lo
  let y := hi
  let z := nat64 S.length * k1
  let f0 ← fetch64 S 0
  let v1 := rotate64 (y ^^^ k1) 49 * k1 + f0
  let f8 ← fetch64 S 8
  let v2 := rotate64 v1 42 * k1 + f8
  let w1 := rotate64 (y + z) 35 * k1 + x
  let f88 ← fetch64 S 88
  let w2 := rotate64 (x + f88) 53 * k1
  return { x := x, y := y, z := z, v1 := v1, v2 := v2, w1 := w1, w2 := w2 }

/-- The step between the blocks and the tail chunks (R286). -/
def city128Mid (s : NaAcc) : NaAcc :=
  let x := s.x + rotate64 (s.v1 + s.z) 49 * k0
  let y := s.y * k0 + rotate64 s.w2 37
  let z := s.z * k0 + rotate64 s.w1 27
  let w1 := s.w1 * 9
  let v1 := s.v1 * k0
  { s with x := x, y := y, z := z, w1 := w1, v1 := v1 }

/-- One 32-byte tail chunk at offset `q`, which is R286's `p + rem - t`. -/
def city128Chunk (S : Bytes) (q : Nat) (s : NaAcc) : Option NaAcc := do
  let y := rotate64 (s.x + s.y) 42 * k0 + s.v2
  let f16 ← fetch64 S (q + 16)
  let w1 := s.w1 + f16
  let x := s.x * k0 + w1
  let f0 ← fetch64 S q
  let z := s.z + s.w2 + f0
  let w2 := s.w2 + s.v1
  let v ← weakMem S q (s.v1 + z) s.v2
  let v1 := v.1 * k0
  return { x := x, y := y, z := z, v1 := v1, v2 := v.2, w1 := w1, w2 := w2 }

/-- `iters` tail chunks, the first ending at offset `e`, each 32 bytes lower than the one before. -/
def city128Chunks (S : Bytes) : Nat → Nat → NaAcc → Option NaAcc
  | 0, _, s => some s
  | iters + 1, e, s => do
    let s' ← city128Chunk S (e - 32) s
    city128Chunks S iters (e - 32) s'

/-- The last folds of the 128-bit hash (R286). -/
def city128End (s : NaAcc) : U64 × U64 :=
  let x := hashLen16 s.x s.v1
  let y := hashLen16 (s.y + s.z) s.w1
  (hashLen16 (x + s.v2) s.w2 + y, hashLen16 (x + s.w2) (y + s.v2))

/-- The long path of the 128-bit hash, for 128 bytes or more: `m / 128` times two blocks, then
`ceil(rem / 32)` tail chunks that end at the end of `S` (R286). -/
def city128Long (S : Bytes) (lo hi : U64) : Option (U64 × U64) := do
  let m := S.length
  let s ← city128Start S lo hi
  let s ← naBlocks S (2 * (m / 128)) 0 s
  let s ← city128Chunks S ((m % 128 + 31) / 32) m (city128Mid s)
  return city128End s

/-- `CC.City128WithSeed(S, (lo, hi))` (R286). -/
def city128WithSeed (S : Bytes) (lo hi : U64) : Option (U64 × U64) :=
  if S.length < 128 then cityMurmur S lo hi else city128Long S lo hi

/-- `CC.Hash128(B)` (R287). -/
def ccHash128 (B : Bytes) : Option (U64 × U64) :=
  if 16 ≤ B.length then do
    let f0 ← fetch64 B 0
    let f8 ← fetch64 B 8
    city128WithSeed (B.drop 16) f0 (f8 + k0)
  else city128WithSeed B k0 k1

/-- CC_LEN0TO4 (R280). -/
def execCcLen0to4 (s : State) : StepResult :=
  issue .ccLen0to4 s (fun B => some (.w32 (ccLen0to4 B)))

/-- CC_LEN5TO12 (R281). -/
def execCcLen5to12 (s : State) : StepResult :=
  issue .ccLen5to12 s (fun B => (ccLen5to12 B).map .w32)

/-- CC_LEN13TO24 (R282). -/
def execCcLen13to24 (s : State) : StepResult :=
  issue .ccLen13to24 s (fun B => (ccLen13to24 B).map .w32)

/-- CC_CITYMURMUR (R285): the seed is (X0, X1). -/
def execCcCitymurmur (s : State) : StepResult :=
  issue .ccCitymurmur s (fun B => (cityMurmur B s.x0 s.x1).map .pair)

/-- CC_H32 (R288). -/
def execCcH32 (s : State) : StepResult := issue .ccH32 s (fun B => (ccHash32 B).map .w32)

/-- CC_H32S (R289). -/
def execCcH32s (s : State) : StepResult :=
  issue .ccH32s s (fun B => (ccHash32WithSeed B (operand32 s.x0)).map .w32)

/-- CC_H128 (R290). -/
def execCcH128 (s : State) : StepResult := issue .ccH128 s (fun B => (ccHash128 B).map .pair)

/-- CC_H128S (R291): the seed is (X0, X1). -/
def execCcH128s (s : State) : StepResult :=
  issue .ccH128s s (fun B => (city128WithSeed B s.x0 s.x1).map .pair)

end Sys2Proof.Machine
end

