-- ==== Sys2Proof/Machine/SuSa.lean ====
section
/-! DEFINITION. Families SU and SA, capability-gated (45_family_su_sa.md rules R260 to R269): MK's
small kernels up to 24 bytes, and opaque long paths above (R265). -/

namespace Sys2Proof.Machine

/-- `SU.Hash32(B)` (R261). -/
def suHash32 (B : Bytes) : Option U32 :=
  if B.length ≤ 4 then some (mkLen0to4 B 0)
  else if B.length ≤ 12 then mkLen5to12 B 0
  else if B.length ≤ 24 then mkLen13to24 B 0
  else some (Config.suLong0 B)

/-- `SU.Hash32WithSeed(B, seed)` (R262). -/
def suHash32WithSeed (B : Bytes) (seed : U32) : Option U32 :=
  if B.length ≤ 24 then mkSeededSmall B seed else some (Config.suLong1 B seed)

/-- `SA.Hash32(B)` (R263). -/
def saHash32 (B : Bytes) : Option U32 :=
  if B.length ≤ 4 then some (mkLen0to4 B 0)
  else if B.length ≤ 12 then mkLen5to12 B 0
  else if B.length ≤ 24 then mkLen13to24 B 0
  else some (Config.saLong0 B)

/-- `SA.Hash32WithSeed(B, seed)` (R264). -/
def saHash32WithSeed (B : Bytes) (seed : U32) : Option U32 :=
  if B.length ≤ 24 then mkSeededSmall B seed else some (Config.saLong1 B seed)

/-- SU_H32 (R266). -/
def execSuH32 (s : State) : StepResult := issue .suH32 s (fun B => (suHash32 B).map .w32)

/-- SU_H32S (R267). -/
def execSuH32s (s : State) : StepResult :=
  issue .suH32s s (fun B => (suHash32WithSeed B (operand32 s.x0)).map .w32)

/-- SA_H32 (R268). -/
def execSaH32 (s : State) : StepResult := issue .saH32 s (fun B => (saHash32 B).map .w32)

/-- SA_H32S (R269). -/
def execSaH32s (s : State) : StepResult :=
  issue .saH32s s (fun B => (saHash32WithSeed B (operand32 s.x0)).map .w32)

end Sys2Proof.Machine
end

