-- ==== Sys2Proof/Machine/Uo.lean ====
section
/-! DEFINITION. Family UO, the seed-symmetric variant (42_family_na_uo_xo.md rules R180 to R186). -/

namespace Sys2Proof.Machine

/-- `UO.H(x, y, mul, r)` (R180). -/
def uoFold (x y mul : U64) (r : Nat) : U64 :=
  let a := (x ^^^ y) * mul
  let a := a ^^^ (a >>> 47)
  let b := (y ^^^ a) * mul
  rotate64 b r * mul

/-- UO's eight accumulators, with `v` and `w` the pairs `(v1, v2)` and `(w1, w2)` (R181). -/
structure UoAcc where
  u : U64
  v1 : U64
  v2 : U64
  w1 : U64
  w2 : U64
  x : U64
  y : U64
  z : U64
  deriving DecidableEq, Repr

/-- One 64-byte block at offset `p` of UO's loop (R181). -/
def uoBlock (B : Bytes) (mul : U64) (p : Nat) (s : UoAcc) : Option UoAcc := do
  let a0 ← fetch64 B p
  let a1 ← fetch64 B (p + 8)
  let a2 ← fetch64 B (p + 16)
  let a3 ← fetch64 B (p + 24)
  let a4 ← fetch64 B (p + 32)
  let a5 ← fetch64 B (p + 40)
  let a6 ← fetch64 B (p + 48)
  let a7 ← fetch64 B (p + 56)
  let x := s.x + a0 + a1
  let y := s.y + a2
  let z := s.z + a3
  let v1 := s.v1 + a4
  let v2 := s.v2 + a5 + a1
  let w1 := s.w1 + a6
  let w2 := s.w2 + a7
  let x := rotate64 x 26
  let x := x * 9
  let y := rotate64 y 29
  let z := z * mul
  let v1 := rotate64 v1 33
  let v2 := rotate64 v2 30
  let w1 := w1 ^^^ x
  let w1 := w1 * 9
  let z := rotate64 z 32
  let z := z + w2
  let w2 := w2 + z
  let z := z * 9
  -- (u, y) <- (y, u)
  let u := y
  let y := s.u
  let z := z + a0 + a6
  let v1 := v1 + a2
  let v2 := v2 + a3
  let w1 := w1 + a4
  let w2 := w2 + a5 + a6
  let x := x + a1
  let y := y + a7
  let y := y + v1
  let v1 := v1 + x - y
  let v2 := v2 + w1
  let w1 := w1 + v2
  let w2 := w2 + x - y
  let x := x + w2
  let w2 := rotate64 w2 34
  -- (u, z) <- (z, u)
  return { u := z, v1 := v1, v2 := v2, w1 := w1, w2 := w2, x := x, y := y, z := u }

/-- `iters` blocks from offset `p` on. -/
def uoBlocks (B : Bytes) (mul : U64) : Nat → Nat → UoAcc → Option UoAcc
  | 0, _, s => some s
  | iters + 1, p, s => do
    let s' ← uoBlock B mul p s
    uoBlocks B mul iters (p + 64) s'

/-- The accumulators before UO's first block, and its multiplier (R181). -/
def uoStart (seed0 seed1 : U64) : UoAcc × U64 :=
  let x := seed0
  let y := seed1 * k2 + 113
  let z := shiftMix (y * k2) * k2
  let u := x - z
  ({ u := u, v1 := seed0, v2 := seed1, w1 := 0, w2 := 0, x := x * k2, y := y, z := z },
   k2 + (u &&& 0x82))

/-- UO's last step, over the last 64 bytes (R181). -/
def uoTail (B : Bytes) (mul : U64) (s : UoAcc) : Option U64 := do
  let n := B.length
  let p := n - 64
  let u := s.u * 9
  let v2 := rotate64 s.v2 28
  let v1 := rotate64 s.v1 20
  let w1 := s.w1 + nat64 ((n - 1) &&& 63)
  let u := u + s.y
  let y := s.y + u
  let f8 ← fetch64 B (p + 8)
  let x := rotate64 (y - s.x + v1 + f8) 37 * mul
  let f48 ← fetch64 B (p + 48)
  let y := rotate64 (y ^^^ v2 ^^^ f48) 42 * mul
  let x := x ^^^ (s.w2 * 9)
  let f40 ← fetch64 B (p + 40)
  let y := y + v1 + f40
  let z := rotate64 (s.z + w1) 33 * mul
  let v ← weakMem B p (v2 * mul) (x + w1)
  let f16 ← fetch64 B (p + 16)
  let w ← weakMem B (p + 32) (z + s.w2) (y + f16)
  return uoFold (hashLen16M (v.1 + x) (w.1 ^^^ y) mul + z - u)
    (uoFold (v.2 + y) (w.2 + z) k2 30 ^^^ x) k2 31

/-- UO's long path, for more than 64 bytes (R181). -/
def uoLong64 (B : Bytes) (seed0 seed1 : U64) : Option U64 := do
  let start := uoStart seed0 seed1
  let s ← uoBlocks B start.2 ((B.length - 1) / 64) 0 start.1
  uoTail B start.2 s

/-- `UO.Hash64WithSeeds(B, seed0, seed1)` (R181). -/
def uoHash64WithSeeds (B : Bytes) (seed0 seed1 : U64) : Option U64 :=
  if B.length ≤ 64 then naHash64WithSeeds B seed0 seed1 else uoLong64 B seed0 seed1

/-- `UO.Hash64WithSeed(B, seed)` (R182). -/
def uoHash64WithSeed (B : Bytes) (seed : U64) : Option U64 :=
  if B.length ≤ 64 then naHash64WithSeed B seed else uoHash64WithSeeds B 0 seed

/-- `UO.Hash64(B)` (R183). -/
def uoHash64 (B : Bytes) : Option U64 :=
  if B.length ≤ 64 then naHash64 B else uoHash64WithSeeds B 81 0

/-- UO_H (R180): the rotate amount is X3[5:0]. -/
def execUoH (s : State) : StepResult :=
  issue .uoH s (fun _ => some (.w64 (uoFold s.x0 s.x1 s.x2 (rotateAmount64 s.x3))))

/-- UO_H64 (R184). -/
def execUoH64 (s : State) : StepResult := issue .uoH64 s (fun B => (uoHash64 B).map .w64)

/-- UO_H64S (R185). -/
def execUoH64s (s : State) : StepResult :=
  issue .uoH64s s (fun B => (uoHash64WithSeed B s.x0).map .w64)

/-- UO_H64SS (R186). -/
def execUoH64ss (s : State) : StepResult :=
  issue .uoH64ss s (fun B => (uoHash64WithSeeds B s.x0 s.x1).map .w64)

end Sys2Proof.Machine
end

