-- ==== Sys2Proof/Machine/Xo.lean ====
section
/-! DEFINITION. Family XO, the length-bucketed crossover (42_family_na_uo_xo.md rules R190 to
R197). -/

namespace Sys2Proof.Machine

/-- `XO.H32(B, o, m, mul, seed0, seed1)`, over the `m` bytes from offset `o` (R190). -/
def xoH32 (B : Bytes) (o m : Nat) (mul seed0 seed1 : U64) : Option U64 := do
  let f0 ← fetch64 B o
  let a := f0 * k1
  let b ← fetch64 B (o + 8)
  let f2 ← fetch64 B (o + m - 8)
  let c := f2 * mul
  let f3 ← fetch64 B (o + m - 16)
  let d := f3 * k2
  let u := rotate64 (a + b) 43 + rotate64 c 30 + d + seed0
  let v := a + rotate64 (b + k2) 18 + c + seed1
  let a := shiftMix ((u ^^^ v) * mul)
  return shiftMix ((v ^^^ a) * mul)

/-- `XO.Len33to64(B)` (R191). -/
def xoLen33to64 (B : Bytes) : Option U64 := do
  let n := B.length
  let mul0 := k2 - 30
  let mul1 := k2 - 30 + 2 * nat64 n
  let h0 ← xoH32 B 0 32 mul0 0 0
  let h1 ← xoH32 B (n - 32) 32 mul1 0 0
  return (h1 * mul1 + h0) * mul1

/-- `XO.Len65to96(B)` (R192). -/
def xoLen65to96 (B : Bytes) : Option U64 := do
  let n := B.length
  let mul0 := k2 - 114
  let mul1 := k2 - 114 + 2 * nat64 n
  let h0 ← xoH32 B 0 32 mul0 0 0
  let h1 ← xoH32 B 32 32 mul1 0 0
  let h2 ← xoH32 B (n - 32) 32 mul1 h0 h1
  return (h2 * 9 + (h0 >>> 17) + (h1 >>> 21)) * mul1

/-- `XO.Hash64(B)` (R193). -/
def xoHash64 (B : Bytes) : Option U64 :=
  if B.length ≤ 16 then naLen0to16 B
  else if B.length ≤ 32 then naLen17to32 B
  else if B.length ≤ 64 then xoLen33to64 B
  else if B.length ≤ 96 then xoLen65to96 B
  else if B.length ≤ 256 then naHash64 B
  else uoHash64 B

/-- `XO.Hash64WithSeed(B, seed)` (R194). -/
def xoHash64WithSeed (B : Bytes) (seed : U64) : Option U64 := uoHash64WithSeed B seed

/-- `XO.Hash64WithSeeds(B, s0, s1)` (R194). -/
def xoHash64WithSeeds (B : Bytes) (s0 s1 : U64) : Option U64 := uoHash64WithSeeds B s0 s1

/-- XO_H32 (R190): `o = 0`, `m = n`, `mul = X0`, and the seeds X1 and X2. -/
def execXoH32 (s : State) : StepResult :=
  issue .xoH32 s (fun B => (xoH32 B 0 B.length s.x0 s.x1 s.x2).map .w64)

/-- XO_LEN33TO64 (R191). -/
def execXoLen33to64 (s : State) : StepResult :=
  issue .xoLen33to64 s (fun B => (xoLen33to64 B).map .w64)

/-- XO_LEN65TO96 (R192). -/
def execXoLen65to96 (s : State) : StepResult :=
  issue .xoLen65to96 s (fun B => (xoLen65to96 B).map .w64)

/-- XO_H64 (R195). -/
def execXoH64 (s : State) : StepResult := issue .xoH64 s (fun B => (xoHash64 B).map .w64)

/-- XO_H64S (R196). -/
def execXoH64s (s : State) : StepResult :=
  issue .xoH64s s (fun B => (xoHash64WithSeed B s.x0).map .w64)

/-- XO_H64SS (R197). -/
def execXoH64ss (s : State) : StepResult :=
  issue .xoH64ss s (fun B => (xoHash64WithSeeds B s.x0 s.x1).map .w64)

end Sys2Proof.Machine
end

