-- ==== Sys2Proof/Machine/TeNt.lean ====
section
/-! DEFINITION. Families TE and NT, capability-gated (43_family_te_nt.md rules R220 to R231). Their
gate is checked by the shared issue step, at every length (R220). -/

namespace Sys2Proof.Machine

/-- `TE.Hash64(B)` (R221): the long path is the opaque TE_LONG0 (R224). -/
def teHash64 (B : Bytes) : Option U64 :=
  if 512 ≤ B.length then some (Config.teLong0 B) else xoHash64 B

/-- `TE.Hash64WithSeed(B, seed)` (R222). -/
def teHash64WithSeed (B : Bytes) (seed : U64) : Option U64 :=
  if 512 ≤ B.length then some (Config.teLong1 B seed) else xoHash64WithSeed B seed

/-- `TE.Hash64WithSeeds(B, s0, s1)` (R223). -/
def teHash64WithSeeds (B : Bytes) (s0 s1 : U64) : Option U64 :=
  if 512 ≤ B.length then some (Config.teLong2 B s0 s1) else xoHash64WithSeeds B s0 s1

/-- `NT.Hash32(B)` (R228). -/
def ntHash32 (B : Bytes) : Option U32 := (teHash64 B).map trunc32

/-- `NT.Hash32WithSeed(B, seed)`: TE takes the seed zero-extended (R229). -/
def ntHash32WithSeed (B : Bytes) (seed : U32) : Option U32 :=
  (teHash64WithSeed B (zext64 seed)).map trunc32

/-- TE_H64 (R225). -/
def execTeH64 (s : State) : StepResult := issue .teH64 s (fun B => (teHash64 B).map .w64)

/-- TE_H64S (R226). -/
def execTeH64s (s : State) : StepResult :=
  issue .teH64s s (fun B => (teHash64WithSeed B s.x0).map .w64)

/-- TE_H64SS (R227). -/
def execTeH64ss (s : State) : StepResult :=
  issue .teH64ss s (fun B => (teHash64WithSeeds B s.x0 s.x1).map .w64)

/-- NT_H32 (R230). -/
def execNtH32 (s : State) : StepResult := issue .ntH32 s (fun B => (ntHash32 B).map .w32)

/-- NT_H32S (R231). -/
def execNtH32s (s : State) : StepResult :=
  issue .ntH32s s (fun B => (ntHash32WithSeed B (operand32 s.x0)).map .w32)

end Sys2Proof.Machine
end

