-- ==== Sys2Proof/Machine/Api.lean ====
section
/-! DEFINITION. The public API commands (47_dispatch_api.md rules R310 to R321): family selection,
the DebugTweak stage, and the pinned Fingerprints. -/

namespace Sys2Proof.Machine

/-- `Out_32(h)` (R311). -/
def out32 (debug : Bool) (h : U32) : U32 := if debug then tweak32 h else h

/-- `Out_64(h)` (R311). -/
def out64 (debug : Bool) (h : U64) : U64 := if debug then tweak64 h else h

/-- `Out_128(h)` (R311). -/
def out128 (debug : Bool) (h : U64 × U64) : U64 × U64 := if debug then tweak128 h else h

/-- The selected family's unseeded 32-bit hash (R312). -/
def selHash32 (sel : Sel32) (B : Bytes) : Option U32 :=
  match sel with
  | .mk => mkHash32 B
  | .sa => saHash32 B
  | .su => suHash32 B
  | .nt => ntHash32 B

/-- The selected family's seeded 32-bit hash (R313). -/
def selHash32WithSeed (sel : Sel32) (B : Bytes) (seed : U32) : Option U32 :=
  match sel with
  | .mk => mkHash32WithSeed B seed
  | .sa => saHash32WithSeed B seed
  | .su => suHash32WithSeed B seed
  | .nt => ntHash32WithSeed B seed

/-- The selected family's unseeded 64-bit hash (R314). -/
def selHash64 (sel : Sel64) (B : Bytes) : Option U64 :=
  match sel with
  | .xo => xoHash64 B
  | .te => teHash64 B

/-- The selected family's one-seed 64-bit hash (R315). -/
def selHash64WithSeed (sel : Sel64S) (B : Bytes) (seed : U64) : Option U64 :=
  match sel with
  | .na => naHash64WithSeed B seed
  | .uo => uoHash64WithSeed B seed
  | .xo => xoHash64WithSeed B seed
  | .te => teHash64WithSeed B seed

/-- The selected family's two-seed 64-bit hash (R316). -/
def selHash64WithSeeds (sel : Sel64S) (B : Bytes) (seed0 seed1 : U64) : Option U64 :=
  match sel with
  | .na => naHash64WithSeeds B seed0 seed1
  | .uo => uoHash64WithSeeds B seed0 seed1
  | .xo => xoHash64WithSeeds B seed0 seed1
  | .te => teHash64WithSeeds B seed0 seed1

/-- HASH32 (R312). -/
def execHash32 (s : State) : StepResult :=
  issue .hash32 s (fun B => (selHash32 s.cfg.sel32 B).map (fun h => .w32 (out32 s.cfg.debug h)))

/-- HASH32S (R313). -/
def execHash32s (s : State) : StepResult :=
  issue .hash32s s (fun B =>
    (selHash32WithSeed s.cfg.sel32 B (operand32 s.x0)).map (fun h => .w32 (out32 s.cfg.debug h)))

/-- HASH64 (R314). -/
def execHash64 (s : State) : StepResult :=
  issue .hash64 s (fun B => (selHash64 s.cfg.sel64 B).map (fun h => .w64 (out64 s.cfg.debug h)))

/-- HASH64S (R315). -/
def execHash64s (s : State) : StepResult :=
  issue .hash64s s (fun B =>
    (selHash64WithSeed s.cfg.sel64s B s.x0).map (fun h => .w64 (out64 s.cfg.debug h)))

/-- HASH64SS (R316). -/
def execHash64ss (s : State) : StepResult :=
  issue .hash64ss s (fun B =>
    (selHash64WithSeeds s.cfg.sel64s B s.x0 s.x1).map (fun h => .w64 (out64 s.cfg.debug h)))

/-- HASH128 (R317). -/
def execHash128 (s : State) : StepResult :=
  issue .hash128 s (fun B => (ccHash128 B).map (fun h => .pair (out128 s.cfg.debug h)))

/-- HASH128S (R318): the seed is (X0, X1). -/
def execHash128s (s : State) : StepResult :=
  issue .hash128s s (fun B =>
    (city128WithSeed B s.x0 s.x1).map (fun h => .pair (out128 s.cfg.debug h)))

/-- FP32, pinned to MK (R319). -/
def execFp32 (s : State) : StepResult := issue .fp32 s (fun B => (mkHash32 B).map .w32)

/-- FP64, pinned to NA (R320). -/
def execFp64 (s : State) : StepResult := issue .fp64 s (fun B => (naHash64 B).map .w64)

/-- FP128, pinned to CC (R321). -/
def execFp128 (s : State) : StepResult := issue .fp128 s (fun B => (ccHash128 B).map .pair)

end Sys2Proof.Machine
end

