-- ==== Sys2Proof/Machine/PrimitiveCmds.lean ====
section
/-! DEFINITION. The primitive commands (40_primitives.md rules R100 to R114), each one line over
the primitive's function and the shared issue step. -/

namespace Sys2Proof.Machine

/-- NOP (R100): it completes and writes no result register. -/
def execNop (s : State) : StepResult := issue .nop s (fun _ => some .none)

/-- FETCH32 (R101). -/
def execFetch32 (s : State) : StepResult := issue .fetch32 s (fun B => (fetch32 B 0).map .w32)

/-- FETCH64 (R102). -/
def execFetch64 (s : State) : StepResult := issue .fetch64 s (fun B => (fetch64 B 0).map .w64)

/-- ROT32 (R103): the amount is X1[4:0]. -/
def execRot32 (s : State) : StepResult :=
  issue .rot32 s (fun _ => some (.w32 (rotate32 (operand32 s.x0) (rotateAmount32 s.x1))))

/-- ROT64 (R104): the amount is X1[5:0]. -/
def execRot64 (s : State) : StepResult :=
  issue .rot64 s (fun _ => some (.w64 (rotate64 s.x0 (rotateAmount64 s.x1))))

/-- BSWAP32 (R105). -/
def execBswap32 (s : State) : StepResult :=
  issue .bswap32 s (fun _ => some (.w32 (bswap32 (operand32 s.x0))))

/-- BSWAP64 (R106). -/
def execBswap64 (s : State) : StepResult := issue .bswap64 s (fun _ => some (.w64 (bswap64 s.x0)))

/-- FMIX (R107). -/
def execFmix (s : State) : StepResult :=
  issue .fmix s (fun _ => some (.w32 (fmix (operand32 s.x0))))

/-- MUR (R108). -/
def execMur (s : State) : StepResult :=
  issue .mur s (fun _ => some (.w32 (mur (operand32 s.x0) (operand32 s.x1))))

/-- SHIFTMIX (R109). -/
def execShiftmix (s : State) : StepResult :=
  issue .shiftmix s (fun _ => some (.w64 (shiftMix s.x0)))

/-- HL16 (R111). -/
def execHl16 (s : State) : StepResult :=
  issue .hl16 s (fun _ => some (.w64 (hashLen16 s.x0 s.x1)))

/-- HL16M (R110). -/
def execHl16m (s : State) : StepResult :=
  issue .hl16m s (fun _ => some (.w64 (hashLen16M s.x0 s.x1 s.x2)))

/-- TWEAK32 (R112), whatever DEBUG is. -/
def execTweak32 (s : State) : StepResult :=
  issue .tweak32 s (fun _ => some (.w32 (tweak32 (operand32 s.x0))))

/-- TWEAK64 (R113). -/
def execTweak64 (s : State) : StepResult := issue .tweak64 s (fun _ => some (.w64 (tweak64 s.x0)))

/-- TWEAK128 (R114). -/
def execTweak128 (s : State) : StepResult :=
  issue .tweak128 s (fun _ => some (.pair (tweak128 (s.x0, s.x1))))

end Sys2Proof.Machine
end

