-- ==== Sys2Proof/Machine/Dispatch.lean ====
section
/-! DEFINITION. One arm per command: the command's meaning, which is the whole issue step of
30_encoding.md rule R86 for it. -/

namespace Sys2Proof.Machine

-- exec i s: what issuing the listed command i does.
def exec (i : Instr) (s : State) : Host.Outcome State Fault Refusal :=
  match i with
  | .nop => Sys2Proof.Machine.execNop s
  | .fetch32 => Sys2Proof.Machine.execFetch32 s
  | .fetch64 => Sys2Proof.Machine.execFetch64 s
  | .rot32 => Sys2Proof.Machine.execRot32 s
  | .rot64 => Sys2Proof.Machine.execRot64 s
  | .bswap32 => Sys2Proof.Machine.execBswap32 s
  | .bswap64 => Sys2Proof.Machine.execBswap64 s
  | .fmix => Sys2Proof.Machine.execFmix s
  | .mur => Sys2Proof.Machine.execMur s
  | .shiftmix => Sys2Proof.Machine.execShiftmix s
  | .hl16 => Sys2Proof.Machine.execHl16 s
  | .hl16m => Sys2Proof.Machine.execHl16m s
  | .tweak32 => Sys2Proof.Machine.execTweak32 s
  | .tweak64 => Sys2Proof.Machine.execTweak64 s
  | .tweak128 => Sys2Proof.Machine.execTweak128 s
  | .naLen0to16 => Sys2Proof.Machine.execNaLen0to16 s
  | .naLen17to32 => Sys2Proof.Machine.execNaLen17to32 s
  | .naLen33to64 => Sys2Proof.Machine.execNaLen33to64 s
  | .weak32 => Sys2Proof.Machine.execWeak32 s
  | .weak32m => Sys2Proof.Machine.execWeak32m s
  | .xoH32 => Sys2Proof.Machine.execXoH32 s
  | .xoLen33to64 => Sys2Proof.Machine.execXoLen33to64 s
  | .xoLen65to96 => Sys2Proof.Machine.execXoLen65to96 s
  | .uoH => Sys2Proof.Machine.execUoH s
  | .mkLen0to4 => Sys2Proof.Machine.execMkLen0to4 s
  | .mkLen5to12 => Sys2Proof.Machine.execMkLen5to12 s
  | .mkLen13to24 => Sys2Proof.Machine.execMkLen13to24 s
  | .ccLen0to4 => Sys2Proof.Machine.execCcLen0to4 s
  | .ccLen5to12 => Sys2Proof.Machine.execCcLen5to12 s
  | .ccLen13to24 => Sys2Proof.Machine.execCcLen13to24 s
  | .ccCitymurmur => Sys2Proof.Machine.execCcCitymurmur s
  | .naH64 => Sys2Proof.Machine.execNaH64 s
  | .naH64s => Sys2Proof.Machine.execNaH64s s
  | .naH64ss => Sys2Proof.Machine.execNaH64ss s
  | .uoH64 => Sys2Proof.Machine.execUoH64 s
  | .uoH64s => Sys2Proof.Machine.execUoH64s s
  | .uoH64ss => Sys2Proof.Machine.execUoH64ss s
  | .xoH64 => Sys2Proof.Machine.execXoH64 s
  | .xoH64s => Sys2Proof.Machine.execXoH64s s
  | .xoH64ss => Sys2Proof.Machine.execXoH64ss s
  | .teH64 => Sys2Proof.Machine.execTeH64 s
  | .teH64s => Sys2Proof.Machine.execTeH64s s
  | .teH64ss => Sys2Proof.Machine.execTeH64ss s
  | .ntH32 => Sys2Proof.Machine.execNtH32 s
  | .ntH32s => Sys2Proof.Machine.execNtH32s s
  | .mkH32 => Sys2Proof.Machine.execMkH32 s
  | .mkH32s => Sys2Proof.Machine.execMkH32s s
  | .suH32 => Sys2Proof.Machine.execSuH32 s
  | .suH32s => Sys2Proof.Machine.execSuH32s s
  | .saH32 => Sys2Proof.Machine.execSaH32 s
  | .saH32s => Sys2Proof.Machine.execSaH32s s
  | .ccH32 => Sys2Proof.Machine.execCcH32 s
  | .ccH32s => Sys2Proof.Machine.execCcH32s s
  | .ccH128 => Sys2Proof.Machine.execCcH128 s
  | .ccH128s => Sys2Proof.Machine.execCcH128s s
  | .hash32 => Sys2Proof.Machine.execHash32 s
  | .hash32s => Sys2Proof.Machine.execHash32s s
  | .hash64 => Sys2Proof.Machine.execHash64 s
  | .hash64s => Sys2Proof.Machine.execHash64s s
  | .hash64ss => Sys2Proof.Machine.execHash64ss s
  | .hash128 => Sys2Proof.Machine.execHash128 s
  | .hash128s => Sys2Proof.Machine.execHash128s s
  | .fp32 => Sys2Proof.Machine.execFp32 s
  | .fp64 => Sys2Proof.Machine.execFp64 s
  | .fp128 => Sys2Proof.Machine.execFp128 s

end Sys2Proof.Machine
end

