-- ==== Sys2Proof/Machine/HostBus.lean ====
section
/-! DEFINITION. What the host's accesses do (10_state.md rules R40, R41; 30_encoding.md rules R86,
R88): the one store that issues a command, the other stores and loads, WAIT, a store to input
memory, and reset. -/

namespace Sys2Proof.Machine

/-- A host store of `v` to CMD (R40, R86): ignored while FAULT is 1 (R347); a listed command runs;
every other word raises ILLEGAL_OP with LAST_OPC = v[7:0] (R343). -/
def issueWord (v : U64) (s : State) : StepResult :=
  if s.fault then .next s
  else
    match decode v with
    | .ok i => exec i s
    | .error _ => .next (raiseFault .illegalOp (startIssue (opcField v) s))

/-- A host store to a register (R32, R40, R41). -/
def storeReg (r : Reg) (v : U64) (s : State) : StepResult :=
  if r = .cmd then issueWord v s else .next (writeReg r v s)

/-- A host load of a register: its value joins what the host has got. -/
def loadReg (r : Reg) (s : State) : State := { s with got := s.got ++ [readReg r s] }

/-- What one access of the host does, in a state where it is pending no more. An access that is not
an aligned 64-bit access to the window is refused (R41); a WAIT that reads DONE and FAULT both 0 is
pending again (R88; notes/assumptions/11.md). -/
def hostAction (a : HostAction) (s : State) : StepResult :=
  match a with
  | .store addr bytes v =>
    match windowReg s.cfg.regBase addr bytes with
    | some r => storeReg r v s
    | none => .refused .badHostAccess
  | .load addr bytes =>
    match windowReg s.cfg.regBase addr bytes with
    | some r => .next (loadReg r s)
    | none => .refused .badHostAccess
  | .wait => if s.done || s.fault then .next s else .next { s with pending := .wait :: s.pending }
  | .memStore a b => .next { s with mem := Memory.store s.mem a.toNat b }
  | .reset => .next (resetEngine s)

/-- One step of an instance: the host's next access, or nothing when the host has none
(notes/assumptions/8.md). -/
def hostStep (s : State) : StepResult :=
  match s.pending with
  | [] => .next s
  | a :: rest => hostAction a { s with pending := rest }

end Sys2Proof.Machine
end

