-- ==== Sys2Proof/Machine/Step.lean ====
section
/-! DEFINITION. One step of the machine. A configuration that is not an instance of the core is
refused (47_dispatch_api.md rule R310; notes/assumptions/12.md); an instance performs the host's
next access. -/

namespace Sys2Proof.Machine

/-- One step (30_encoding.md rule R86; notes/assumptions/8.md). -/
def step (s : State) : Host.Outcome State Fault Refusal :=
  if configAdmitted s.cfg then hostStep s else .refused .notAnInstance

/-- The state in which the very next step is the host's store of the command word `w` to CMD: the
store is placed before every other pending access. -/
def State.withFetchWord (s : State) (nbits w : Nat) : State :=
  { s with pending := .store (s.cfg.regBase + regOffset .cmd) 8 (BitVec.ofNat 64 (w % 2 ^ nbits))
                        :: s.pending }

end Sys2Proof.Machine
end

