-- ==== Sys2Proof/Safety.lean ====
section
/-! DEFINITION. The terms claims are made in: what a buffer holds (20_memory.md rule R61), the state
a completed or a faulted command leaves (30_encoding.md rule R87; 60_exceptions.md rule R346), the
invariant every step keeps, and which runs the spec speaks of (rule R341). -/

namespace Sys2Proof.Machine

/-- The buffer of `s` is `B`: it has LEN bytes, does not wrap, lies in no side-effect memory, and
the memory admits each of its bytes and holds `B` there (R61, R65). -/
def BufferIs (s : State) (B : Bytes) : Prop :=
  B.length = s.len.toNat ∧ s.src.toNat + s.len.toNat ≤ 2 ^ 64
    ∧ touchesSideEffects s.cfg.sideEffects s.src.toNat s.len.toNat = false
    ∧ ∀ i < B.length, Memory.read s.mem (s.src.toNat + i) = B[i]?

/-- The `k`-byte little-endian number at offset `i` of `B` (R62); a byte outside `B` counts 0. -/
def leNat (B : Bytes) (i : Nat) : Nat → Nat
  | 0 => 0
  | k + 1 => (B.getD i 0).toNat + 256 * leNat B (i + 1) k

/-- `Fetch32(B, i)` as a number, for use inside the buffer (R62). -/
def le32 (B : Bytes) (i : Nat) : U32 := BitVec.ofNat 32 (leNat B i 4)

/-- `Fetch64(B, i)` as a number, for use inside the buffer (R62). -/
def le64 (B : Bytes) (i : Nat) : U64 := BitVec.ofNat 64 (leNat B i 8)

/-- What a completed command with OPC `op` leaves: R0 = `a`, R1 = `b`, DONE and LAST_OPC, and every
other field as it was (R36, R86, R87). -/
def completedWith (op : Byte) (a b : U64) (s : State) : State :=
  { s with r0 := a, r1 := b, written := { s.written with r0 := true, r1 := true }, done := true,
           lastOpc := op }

/-- What a fault of code `c` leaves, raised by a command word with OPC `op`: FAULT, FCODE, DONE and
LAST_OPC, and every other field as it was (R346). -/
def faultedWith (op : Byte) (c : BitVec 4) (s : State) : State :=
  { s with fault := true, fcode := c, done := false, lastOpc := op }

/-- The instance's hardware has the capabilities the command `i` is gated on, read from the MISCONFIG
row of R340 and the gates of R37: TE and NT need SIMD128 and PTR64, SU needs SIMD128, CRC32 and AES,
SA needs SIMD128 and CRC32, a HASH command needs what the family its selector names needs, and every
other command needs nothing. -/
def gateHeld (c : CoreConfig) (i : Instr) : Prop :=
  let te := c.hwcap.simd128 = true ∧ c.hwcap.ptr64 = true
  let su := c.hwcap.simd128 = true ∧ c.hwcap.crc32 = true ∧ c.hwcap.aes = true
  let sa := c.hwcap.simd128 = true ∧ c.hwcap.crc32 = true
  (i ∈ [Instr.teH64, .teH64s, .teH64ss, .ntH32, .ntH32s] → te)
    ∧ (i ∈ [Instr.suH32, .suH32s] → su)
    ∧ (i ∈ [Instr.saH32, .saH32s] → sa)
    ∧ (i ∈ [Instr.hash32, .hash32s] →
        (c.sel32 = .nt → te) ∧ (c.sel32 = .su → su) ∧ (c.sel32 = .sa → sa))
    ∧ (i = .hash64 → c.sel64 = .te → te)
    ∧ (i ∈ [Instr.hash64s, .hash64ss] → c.sel64s = .te → te)

/-- The least and the greatest LEN of a kernel command whose domain is not "any" (R84, R344). -/
def kernelDomain : Instr → Option (Nat × Nat)
  | .fetch32 => some (4, 2 ^ 64 - 1)
  | .fetch64 => some (8, 2 ^ 64 - 1)
  | .naLen0to16 => some (0, 16)
  | .naLen17to32 => some (17, 32)
  | .naLen33to64 => some (33, 64)
  | .weak32m => some (32, 2 ^ 64 - 1)
  | .xoH32 => some (16, 2 ^ 64 - 1)
  | .xoLen33to64 => some (33, 64)
  | .xoLen65to96 => some (65, 96)
  | .mkLen0to4 => some (0, 4)
  | .mkLen5to12 => some (5, 12)
  | .mkLen13to24 => some (13, 24)
  | .ccLen0to4 => some (0, 4)
  | .ccLen5to12 => some (5, 12)
  | .ccLen13to24 => some (13, 24)
  | .ccCitymurmur => some (0, 127)
  | _ => none

/-- `n` is a LEN the command `i` accepts (R84). -/
def lenHeld (n : Nat) (i : Instr) : Prop :=
  ∀ d, kernelDomain i = some d → d.1 ≤ n ∧ n ≤ d.2

/-- The commands that read no buffer (R84, column "reads"). -/
def registerOnly : List Instr :=
  [.nop, .rot32, .rot64, .bswap32, .bswap64, .fmix, .mur, .shiftmix, .hl16, .hl16m, .tweak32,
   .tweak64, .tweak128, .weak32, .uoH]

/-- The command `i` reads the register `r` that the host writes, by R84's column "reads": a command
that reads the buffer reads SRC and LEN with it. -/
def commandReads (i : Instr) : OperandReg → Prop
  | .src => i ∉ registerOnly
  | .len => i ∉ registerOnly
  | .x0 => i ∈ [.rot32, .rot64, .bswap32, .bswap64, .fmix, .mur, .shiftmix, .hl16, .hl16m, .tweak32,
      .tweak64, .tweak128, .weak32, .weak32m, .xoH32, .uoH, .mkLen0to4, .mkLen5to12, .mkLen13to24,
      .ccCitymurmur, .naH64s, .naH64ss, .uoH64s, .uoH64ss, .xoH64s, .xoH64ss, .teH64s, .teH64ss,
      .ntH32s, .mkH32s, .suH32s, .saH32s, .ccH32s, .ccH128s, .hash32s, .hash64s, .hash64ss, .hash128s]
  | .x1 => i ∈ [.rot32, .rot64, .mur, .hl16, .hl16m, .tweak128, .weak32, .weak32m, .xoH32, .uoH,
      .ccCitymurmur, .naH64ss, .uoH64ss, .xoH64ss, .teH64ss, .ccH128s, .hash64ss, .hash128s]
  | .x2 => i ∈ [.hl16m, .weak32, .xoH32, .uoH]
  | .x3 => i ∈ [.weak32, .uoH]
  | .x4 => i = .weak32
  | .x5 => i = .weak32

/-- The operand registers that the reads column of R84 gives `i` hold the same values in `s` and
`t` (SRC and LEN, which go with the buffer, apart). -/
def sameOperands (i : Instr) (s t : State) : Prop :=
  let r := instrReads i
  (r.x0 = true → s.x0 = t.x0) ∧ (r.x1 = true → s.x1 = t.x1) ∧ (r.x2 = true → s.x2 = t.x2)
    ∧ (r.x3 = true → s.x3 = t.x3) ∧ (r.x4 = true → s.x4 = t.x4) ∧ (r.x5 = true → s.x5 = t.x5)

/-- The recurrence of the data buffer (95_test_vectors.md section V0), from byte `i` on. -/
def dataBytes : Nat → Nat → U64 → U64 → Bytes
  | 0, _, _, _ => []
  | k + 1, i, a, b =>
    let a := a + b
    let b := b + a
    let a := (a ^^^ (a >>> 41)) * k0
    let b := (b ^^^ (b >>> 41)) * k0 + nat64 i
    (b >>> 37).setWidth 8 :: dataBytes k (i + 1) a b

/-- `D[0..n)`, the first `n` bytes of the data buffer the spec's examples use (section V0). -/
def dataBuffer (n : Nat) : Bytes := dataBytes n 0 9 777

/-- The host's next access is an aligned 64-bit store of `v` to register `r`, of an instance of the
core, with `rest` to follow. -/
def HostStores (s : State) (r : Reg) (v : U64) (rest : List HostAction) : Prop :=
  configAdmitted s.cfg = true ∧ s.pending = .store (s.cfg.regBase + regOffset r) 8 v :: rest

/-- The host's next access is an aligned 64-bit load of register `r`, of an instance of the core,
with `rest` to follow. -/
def HostLoads (s : State) (r : Reg) (rest : List HostAction) : Prop :=
  configAdmitted s.cfg = true ∧ s.pending = .load (s.cfg.regBase + regOffset r) 8 :: rest

/-- The legal states: the memory is canonical; the configuration is an instance; FCODE is 0 exactly
when FAULT is 0, and never a reserved code (R39, R340); a faulted engine has DONE 0 (R346); R0 and
R1 are written together (R36). -/
def Legal (s : State) : Prop :=
  Memory.wf s.mem ∧ configAdmitted s.cfg = true ∧ (s.fault = true ↔ s.fcode ≠ 0)
    ∧ s.fcode.toNat ≤ 3 ∧ (s.fault = true → s.done = false) ∧ s.written.r0 = s.written.r1

/-- The register `r` holds no value in the spec's sense (R33, R48): it has not been written since
reset. The registers with a value of their own are always written. -/
def regUnwritten (r : Reg) (s : State) : Bool :=
  match r with
  | .src => !s.written.src
  | .len => !s.written.len
  | .x0 => !s.written.x0
  | .x1 => !s.written.x1
  | .x2 => !s.written.x2
  | .x3 => !s.written.x3
  | .x4 => !s.written.x4
  | .x5 => !s.written.x5
  | .r0 => !s.written.r0
  | .r1 => !s.written.r1
  | .cmd => false
  | .status => false
  | .cap => false
  | .config => false
  | .reserved _ => false

/-- A command word that would read an unwritten register: not ignored, listed, past its gate check
(R345), and reading a register not written since reset. -/
def wordUnwritten (v : U64) (s : State) : Bool :=
  match decode v with
  | .ok i => !s.fault && capSubset (instrGate s.cfg i) s.cfg.hwcap && readsUnwritten i s
  | .error _ => false

/-- The next access is one the spec calls `Unwritten` (R341): the machine takes it, with the values
notes/assumptions/1.md names, and the spec claims nothing of it. -/
def nextUnwritten (s : State) : Bool :=
  match s.pending with
  | .store addr bytes v :: _ =>
    decide (windowReg s.cfg.regBase addr bytes = some .cmd) && wordUnwritten v s
  | .load addr bytes :: _ =>
    match windowReg s.cfg.regBase addr bytes with
    | some r => regUnwritten r s
    | none => false
  | .wait :: _ => false
  | .memStore _ _ :: _ => false
  | .reset :: _ => false
  | [] => false

/-- A step the spec speaks of: it does not stop, and reads no unwritten register (R341, R372). -/
def SafeStep (s : State) : Prop := (∃ t, step s = .next t) ∧ nextUnwritten s = false

end Sys2Proof.Machine
end

