-- ==== Sys2Proof/Certificates/Slice0/Obligations.lean ====
section
/-! DEFINITION. The statements for the provers, in the order of the spec's files: the command word,
the step, the faults, the register window, reset, and then every command's result with its frame.
`completedWith` and `faultedWith` (Sys2Proof/Safety.lean) name the whole next state, so each equation
with one of them is also the command's frame: every register, flag, byte of memory and parameter not
named there is as it was. -/

open Sys2Proof Sys2Proof.Machine

/-! ## The command word -/

/-- Words written out from R84's table decode to the commands they stand for, one of each group. -/
def Obligations.SampleWordsDecode : Prop :=
  decode 0x0000000000000000 = .ok .nop ∧ decode 0x0000000000000007 = .ok .fmix
    ∧ decode 0x0000000000000011 = .ok .naLen17to32 ∧ decode 0x0000000000000027 = .ok .ccCitymurmur
    ∧ decode 0x0000000000000045 = .ok .uoH64s ∧ decode 0x0000000000000062 = .ok .ccH128
    ∧ decode 0x0000000000000086 = .ok .hash64ss ∧ decode 0x0000000000000092 = .ok .fp128
    ∧ decode 0x0000000000000093 = .error .reservedOpc
    ∧ decode 0x0000000000000107 = .error .rsvNonzero

/-- R80, R84, R85: decoding and encoding agree on every 64-bit value, in both directions: a value is
a command's word exactly when it is that command's encoding. -/
def Obligations.DecodeEncodeAgree : Prop :=
  ∀ (v : U64) (i : Instr), decode v = .ok i ↔ v = encode i

/-- R85 and R343: a reserved OPC is one of the listed values, and those are exactly the values no
command has; a CMD write with a bit of RSV set or a reserved OPC raises ILLEGAL_OP, LAST_OPC records
bits 7:0, and no register but STATUS changes; 0x00 is the one no-operation command. -/
def Obligations.IllegalWords : Prop :=
  let listed : Byte → Prop := fun o =>
    ∃ r ∈ [(0x0F, 0x0F), (0x15, 0x17), (0x1B, 0x1B), (0x1D, 0x1F), (0x23, 0x23), (0x28, 0x3F),
      (0x43, 0x43), (0x47, 0x47), (0x4B, 0x4B), (0x4F, 0x4F), (0x52, 0x53), (0x56, 0x57),
      (0x5A, 0x5B), (0x5E, 0x5F), (0x64, 0x7F), (0x82, 0x83), (0x87, 0x87), (0x8A, 0x8F),
      (0x93, 0xFF)], r.1 ≤ o.toNat ∧ o.toNat ≤ r.2
  (∀ o : Byte, listed o ↔ ∀ i : Instr, i.opc ≠ o)
    ∧ (∀ (s : State) (v : U64) (rest : List HostAction),
        HostStores s .cmd v rest → s.fault = false →
        (v.extractLsb' 8 56 ≠ 0 ∨ listed (v.extractLsb' 0 8)) →
        step s = .next { faultedWith (v.extractLsb' 0 8) 1 s with pending := rest })
    ∧ (∀ i : Instr, i.opc = 0 ↔ i = .nop)

/-! ## The step -/

/-- R40, R86: a step in which the host stores a command's word to CMD runs that command, on the
state in which the store is pending no more. -/
def Obligations.StepRunsDecodedCommand : Prop :=
  ∀ (s : State) (v : U64) (rest : List HostAction) (i : Instr),
    HostStores s .cmd v rest → decode v = .ok i → step s = exec i { s with pending := rest }

/-- R347: a fault halts the engine. While FAULT is 1 a write to CMD changes no state, the writes to
SRC, LEN and X0 to X5 take effect, every read works, and only reset clears FAULT: every other step
keeps FAULT, FCODE and LAST_OPC. -/
def Obligations.HaltedEngine : Prop :=
  ∀ s : State, s.fault = true →
    (∀ v rest, HostStores s .cmd v rest → step s = .next { s with pending := rest })
    ∧ (∀ r v rest, HostStores s (operandReg r) v rest →
        ∃ t, step s = .next t ∧ readReg (operandReg r) t = v
          ∧ ∀ r', r' ≠ operandReg r → readReg r' t = readReg r' s)
    ∧ (∀ r rest, HostLoads s r rest →
        step s = .next { s with pending := rest, got := s.got ++ [readReg r s] })
    ∧ (∀ t, step s = .next t → (∀ rest, s.pending ≠ .reset :: rest) →
        t.fault = true ∧ t.fcode = s.fcode ∧ t.lastOpc = s.lastOpc)
    ∧ (∀ rest, configAdmitted s.cfg = true → s.pending = .reset :: rest →
        ∃ t, step s = .next t ∧ t.fault = false)

/-- R346: a command that faults writes FAULT, FCODE and DONE, beside LAST_OPC, and nothing else. -/
def Obligations.FaultEntry : Prop :=
  ∀ (s t : State) (v : U64) (rest : List HostAction),
    HostStores s .cmd v rest → s.fault = false → step s = .next t → t.fault = true →
    ∃ c : BitVec 4, (c = 1 ∨ c = 2 ∨ c = 3)
      ∧ t = { s with fault := true, fcode := c, done := false, lastOpc := v.extractLsb' 0 8,
                     pending := rest }

/-- R342: a command whose gate is not within HWCAP raises MISCONFIG and computes nothing, at every
LEN and with any buffer; no other command raises it; CLAIMCAP plays no part, so a gated command
completes on hardware that has its gate, whatever is claimed. -/
def Obligations.MisconfigGates : Prop :=
  (∀ (s : State) (i : Instr), s.fault = false → ¬ gateHeld s.cfg i →
      exec i s = .next (faultedWith i.opc 2 s))
    ∧ (∀ (s : State) (i : Instr), s.fault = false → gateHeld s.cfg i →
        exec i s ≠ .next (faultedWith i.opc 2 s))
    ∧ (∀ (s : State) (B : Bytes) (claim : CapSet) (i : Instr),
        i ∈ [.teH64, .teH64s, .teH64ss, .ntH32, .ntH32s, .suH32, .suH32s, .saH32, .saH32s] →
        s.fault = false → gateHeld s.cfg i → BufferIs s B →
        ∃ a b, exec i { s with cfg := { s.cfg with claimcap := claim } }
          = .next (completedWith i.opc a b { s with cfg := { s.cfg with claimcap := claim } }))

/-- R344: a kernel command whose LEN is outside its domain raises DOMAIN before the buffer is read,
so whatever SRC and the memory hold; a kernel command whose LEN is inside its domain, and any other
command, does not. -/
def Obligations.DomainFaults : Prop :=
  (∀ (s : State) (i : Instr) (d : Nat × Nat), s.fault = false → kernelDomain i = some d →
      (s.len.toNat < d.1 ∨ d.2 < s.len.toNat) → exec i s = .next (faultedWith i.opc 3 s))
    ∧ (∀ (s : State) (i : Instr), s.fault = false → lenHeld s.len.toNat i →
        exec i s ≠ .next (faultedWith i.opc 3 s))

/-- R61, R65, R341: a buffer command past its gate and domain checks is stuck when its buffer wraps,
refused when its buffer touches memory whose reads have side effects, and stuck when the memory does
not admit a byte; an empty buffer is read at every SRC. The order of the second and third is the
model's choice (notes/assumptions/7.md). -/
def Obligations.BufferStops : Prop :=
  ∀ (s : State) (i : Instr), s.fault = false → gateHeld s.cfg i → lenHeld s.len.toNat i →
    i ∉ registerOnly →
    (2 ^ 64 < s.src.toNat + s.len.toNat → exec i s = .fault (.stuck .bufferWraps))
    ∧ (s.src.toNat + s.len.toNat ≤ 2 ^ 64 →
        (∃ r ∈ s.cfg.sideEffects, ∃ a, r.base ≤ a ∧ a < r.base + r.size
          ∧ s.src.toNat ≤ a ∧ a < s.src.toNat + s.len.toNat) →
        exec i s = .refused .sideEffectMemory)
    ∧ (s.src.toNat + s.len.toNat ≤ 2 ^ 64 →
        (∀ r ∈ s.cfg.sideEffects, ∀ a, r.base ≤ a → a < r.base + r.size →
          ¬ (s.src.toNat ≤ a ∧ a < s.src.toNat + s.len.toNat)) →
        (∃ k < s.len.toNat, Memory.read s.mem (s.src.toNat + k) = none) →
        exec i s = .fault (.stuck .bufferNotAdmitted))
    ∧ (s.len = 0 → BufferIs s [])

/-- R67, R341: no datapath fetches outside its buffer: no step of any state ends in the model error
InternalRange. -/
def Obligations.NoStepFetchesOutsideTheBuffer : Prop :=
  ∀ s : State, step s ≠ .fault .internalRange

/-- R380: every CMD write ends in one step, in completion or in a fault, except when the buffer read
is stuck (R61) or refused (R65). -/
def Obligations.EveryCommandEnds : Prop :=
  ∀ (s : State) (v : U64) (rest : List HostAction), HostStores s .cmd v rest →
    (∃ t, step s = .next t ∧ (t.done = true ∨ t.fault = true))
    ∨ (∃ why, step s = .fault (.stuck why) ∧ 0 < s.len.toNat)
    ∨ (step s = .refused .sideEffectMemory ∧ 0 < s.len.toNat)

/-- R84, R87, R372: every command completes once its gate is held, its LEN is in its domain and, if
it reads the buffer, the buffer can be read. It sets DONE and LAST_OPC and writes R0 and R1 by the
width of its result (NOP writes neither), and nothing else changes. R372 also asks that every register
the command reads be written: that a command completes on unwritten ones too, with the values they
hold, is the model's choice (notes/assumptions/2.md). -/
def Obligations.ReadyCommandsComplete : Prop :=
  ∀ (s : State) (i : Instr), s.fault = false → gateHeld s.cfg i → lenHeld s.len.toNat i →
    (i ∉ registerOnly → ∃ B, BufferIs s B) →
    (i = .nop → exec i s = .next { s with done := true, lastOpc := 0 })
    ∧ (i ≠ .nop → ∃ a b, exec i s = .next (completedWith i.opc a b s)
        ∧ (i ∉ [.tweak128, .weak32, .weak32m, .ccCitymurmur, .ccH128, .ccH128s, .hash128,
                .hash128s, .fp128] → b = 0)
        ∧ (i ∈ [.fetch32, .rot32, .bswap32, .fmix, .mur, .tweak32, .mkLen0to4, .mkLen5to12,
                .mkLen13to24, .ccLen0to4, .ccLen5to12, .ccLen13to24, .ntH32, .ntH32s, .mkH32,
                .mkH32s, .suH32, .suH32s, .saH32, .saH32s, .ccH32, .ccH32s, .hash32, .hash32s,
                .fp32] → a.toNat < 2 ^ 32))

/-- R33, R60, R87: no command writes SRC, LEN, X0 to X5 or any byte of memory, whatever its outcome;
R0 and R1 change only when it completes. -/
def Obligations.CommandFrame : Prop :=
  ∀ (s t : State) (i : Instr), exec i s = .next t →
    t.src = s.src ∧ t.len = s.len ∧ t.x0 = s.x0 ∧ t.x1 = s.x1 ∧ t.x2 = s.x2 ∧ t.x3 = s.x3
      ∧ t.x4 = s.x4 ∧ t.x5 = s.x5 ∧ t.cfg = s.cfg ∧ t.pending = s.pending ∧ t.got = s.got
      ∧ (∀ a, Memory.read t.mem a = Memory.read s.mem a)
      ∧ (t.fault = true → t.r0 = s.r0 ∧ t.r1 = s.r1)

/-- R374: no step changes a parameter of the instance, and CAP and CONFIG read the same values at
every moment. -/
def Obligations.ConfigurationIsFixed : Prop :=
  ∀ s t : State, step s = .next t →
    t.cfg = s.cfg ∧ readReg .cap t = readReg .cap s ∧ readReg .config t = readReg .config s

/-- R45: a command's result depends only on its OPC, the registers it reads, its buffer's bytes and
the configuration: two states that agree on these, and on nothing else, have the same outcome. -/
def Obligations.ResultDependsOnItsReads : Prop :=
  ∀ (s s' t : State) (i : Instr), i ≠ .nop → s.fault = false → s'.fault = false →
    s'.cfg = s.cfg → sameOperands i s s' →
    (i ∉ registerOnly → ∃ B, BufferIs s B ∧ BufferIs s' B) →
    exec i s = .next t →
    (∃ c, t = faultedWith i.opc c s ∧ exec i s' = .next (faultedWith i.opc c s'))
    ∨ (∃ a b, t = completedWith i.opc a b s ∧ exec i s' = .next (completedWith i.opc a b s'))

/-! ## The invariant -/

/-- Every step keeps a legal state legal: canonical memory, an instance of the core, FCODE 0 exactly
when FAULT is 0 and never a reserved code, DONE 0 in a fault, R0 and R1 written together. -/
def Obligations.LegalKept : Prop :=
  ∀ s t : State, Legal s → step s = .next t → Legal t

/-- The state after reset is legal. -/
def Obligations.LegalAtReset : Prop := Legal State.reset

/-! ## The register window -/

/-- R39: the fields of STATUS, what each says after a command, and that only command issue and reset
write it. -/
def Obligations.StatusRegister : Prop :=
  (∀ s : State,
      (readReg .status s).getLsbD 0 = s.done ∧ (readReg .status s).getLsbD 1 = s.fault
      ∧ (readReg .status s).extractLsb' 8 4 = s.fcode
      ∧ (readReg .status s).extractLsb' 16 8 = s.lastOpc
      ∧ (∀ k, (2 ≤ k ∧ k < 8 ∨ 12 ≤ k ∧ k < 16 ∨ 24 ≤ k) → (readReg .status s).getLsbD k = false)
      ∧ (Legal s → s.fault = false → (readReg .status s).extractLsb' 8 4 = 0))
    ∧ (∀ (s t : State) (v : U64) (rest : List HostAction), HostStores s .cmd v rest →
        s.fault = false → step s = .next t →
        (t.done = true ↔ t.fault = false) ∧ t.lastOpc = v.extractLsb' 0 8)
    ∧ (∀ s t : State, step s = .next t → readReg .status t ≠ readReg .status s →
        (∃ v rest, HostStores s .cmd v rest) ∨ ∃ rest, s.pending = .reset :: rest)
    ∧ (∀ s t : State, step s = .next t → s.fault = true → t.fault = false →
        ∃ rest, s.pending = .reset :: rest)

/-- R38, and the bits of CAP that R37 gives: CAP and CONFIG read the parameters of the instance,
every other bit reads 0, and writes to them are ignored. -/
def Obligations.CapAndConfigWords : Prop :=
  (∀ s : State,
      (readReg .config s).getLsbD 0 = s.cfg.debug
      ∧ (readReg .config s).extractLsb' 8 2
        = (match s.cfg.sel32 with | .mk => 0#2 | .sa => 1#2 | .su => 2#2 | .nt => 3#2)
      ∧ (readReg .config s).getLsbD 12 = (match s.cfg.sel64 with | .xo => false | .te => true)
      ∧ (readReg .config s).extractLsb' 16 2
        = (match s.cfg.sel64s with | .na => 0#2 | .uo => 1#2 | .xo => 2#2 | .te => 3#2)
      ∧ (∀ k, k ∉ [0, 8, 9, 12, 16, 17] → (readReg .config s).getLsbD k = false)
      ∧ (readReg .cap s).getLsbD 0 = s.cfg.claimcap.simd128
      ∧ (readReg .cap s).getLsbD 1 = s.cfg.claimcap.crc32
      ∧ (readReg .cap s).getLsbD 2 = s.cfg.claimcap.aes
      ∧ (readReg .cap s).getLsbD 3 = s.cfg.claimcap.ptr64
      ∧ (∀ k, 4 ≤ k → (readReg .cap s).getLsbD k = false))
    ∧ (∀ (s : State) (r : Reg) (v : U64) (rest : List HostAction), r = .cap ∨ r = .config →
        HostStores s r v rest → step s = .next { s with pending := rest })

/-- R41: writes to the read-only registers and to reserved offsets are ignored, a reserved offset
reads 0, and an access that is not an aligned 64-bit access is refused. -/
def Obligations.OtherHostAccesses : Prop :=
  (∀ (s : State) (r : Reg) (v : U64) (rest : List HostAction),
      (r ∈ [.r0, .r1, .status, .cap, .config] ∨ ∃ k, r = .reserved k) → HostStores s r v rest →
      step s = .next { s with pending := rest })
    ∧ (∀ (s : State) (k : Fin 18) (rest : List HostAction), HostLoads s (.reserved k) rest →
        step s = .next { s with pending := rest, got := s.got ++ [0] })
    ∧ (∀ (s : State) (addr bytes : Nat) (v : U64) (rest : List HostAction),
        configAdmitted s.cfg = true → s.cfg.regBase % 8 = 0 → ¬ (bytes = 8 ∧ addr % 8 = 0) →
        (s.pending = .store addr bytes v :: rest → step s = .refused .badHostAccess)
        ∧ (s.pending = .load addr bytes :: rest → step s = .refused .badHostAccess))

/-- R32, R40, R377: a store to SRC, LEN or an X register takes effect at once, makes that register
written and changes no other; a load returns the register's value, 0 for CMD, and changes none.
R33, R341, and R345 item 4: only a reset unwrites a register, and only a store to it, or for R0 and R1
a command that completes, writes it; a command word that is not ignored, is listed and has its gate is
`Unwritten` exactly when it reads a register not written since reset (R84, column "reads"), whatever
LEN and the memory are, and no other command word is; a load is `Unwritten` exactly when its register
is. That a load of SRC, LEN or an X register counts, and that the machine runs on, is the model's
choice (notes/assumptions/2.md). -/
def Obligations.RegisterAccess : Prop :=
  (∀ (s : State) (r : OperandReg) (v : U64) (rest : List HostAction),
      HostStores s (operandReg r) v rest →
      ∃ t, step s = .next t ∧ readReg (operandReg r) t = v
        ∧ regUnwritten (operandReg r) t = false
        ∧ (∀ r', r' ≠ operandReg r →
            readReg r' t = readReg r' s ∧ regUnwritten r' t = regUnwritten r' s)
        ∧ t.mem = s.mem ∧ t.cfg = s.cfg ∧ t.got = s.got ∧ t.pending = rest)
    ∧ (∀ (s : State) (r : Reg) (rest : List HostAction), HostLoads s r rest →
        step s = .next { s with pending := rest, got := s.got ++ [readReg r s] }
        ∧ nextUnwritten s = regUnwritten r s)
    ∧ (∀ s : State, readReg .cmd s = 0)
    ∧ (∀ (s : State) (r : Reg), regUnwritten r s = true →
        r ∈ [.src, .len, .x0, .x1, .x2, .x3, .x4, .x5, .r0, .r1])
    ∧ (∀ (s t : State) (v : U64) (rest : List HostAction) (i : Instr),
        HostStores s .cmd v rest → decode v = .ok i → i ≠ .nop → s.fault = false →
        step s = .next t → t.fault = false →
        regUnwritten .r0 t = false ∧ regUnwritten .r1 t = false)
    ∧ (∀ (s t : State) (r : Reg), step s = .next t → regUnwritten r t ≠ regUnwritten r s →
        (regUnwritten r t = true → ∃ rest, s.pending = .reset :: rest)
        ∧ (regUnwritten r t = false →
            (∃ o v rest, r = operandReg o ∧ HostStores s r v rest)
            ∨ ((r = .r0 ∨ r = .r1) ∧ t.done = true ∧ ∃ v rest, HostStores s .cmd v rest)))
    ∧ (∀ (s : State) (v : U64) (rest : List HostAction) (i : Instr),
        HostStores s .cmd v rest → decode v = .ok i → s.fault = false → gateHeld s.cfg i →
        (nextUnwritten s = true
          ↔ ∃ r, commandReads i r ∧ regUnwritten (operandReg r) s = true))
    ∧ (∀ (s : State) (v : U64) (rest : List HostAction), HostStores s .cmd v rest →
        (s.fault = true ∨ (∀ i, decode v ≠ .ok i)
          ∨ (∃ i, decode v = .ok i ∧ ¬ gateHeld s.cfg i)) →
        nextUnwritten s = false)
    ∧ (∀ s : State, nextUnwritten s = true → ∃ rest,
        (∃ v, s.pending = .store (s.cfg.regBase + regOffset .cmd) 8 v :: rest)
        ∨ (∃ r, s.pending = .load (s.cfg.regBase + regOffset r) 8 :: rest))

/-- R88, R376: the first STATUS read after a CMD write shows the outcome, so a WAIT after a CMD write
takes one step. A WAIT with DONE and FAULT both 0 stays pending: the model's reading of "repeated
until" (notes/assumptions/11.md). -/
def Obligations.WaitTakesOneStep : Prop :=
  (∀ (s t : State) (v : U64) (rest : List HostAction), HostStores s .cmd v (.wait :: rest) →
      step s = .next t →
      (t.done = true ∨ t.fault = true) ∧ step t = .next { t with pending := rest })
    ∧ (∀ (s : State) (rest : List HostAction), configAdmitted s.cfg = true →
        s.pending = .wait :: rest → s.done = false → s.fault = false → step s = .next s)

/-- R68: a host store to an admitted byte of input memory is in the buffer that the next command
reads, and changes no other byte and no register. R66: which addresses are admitted is the launch
memory's, and no step changes it, so a buffer the launch memory does not admit stays stuck whatever the
host stores. That a store to an address that is not admitted does nothing is the model's choice
(notes/assumptions/6.md). -/
def Obligations.HostMemoryStore : Prop :=
  (∀ (s : State) (a : U64) (b : Byte) (rest : List HostAction), configAdmitted s.cfg = true →
      s.pending = .memStore a b :: rest →
      ∃ m, step s = .next { s with pending := rest, mem := m }
        ∧ (∀ x, Memory.read m x
            = if x = a.toNat ∧ (Memory.read s.mem x).isSome then some b else Memory.read s.mem x)
        ∧ (∀ B, BufferIs s B → ∃ B', BufferIs { s with pending := rest, mem := m } B'
            ∧ ∀ k < B.length, B'[k]? = if s.src.toNat + k = a.toNat then some b else B[k]?))
    ∧ (∀ s t : State, step s = .next t →
        ∀ x, (Memory.read t.mem x).isSome = (Memory.read s.mem x).isSome)
    ∧ (∀ (s t : State) (i : Instr), step s = .next t → t.fault = false → gateHeld t.cfg i →
        lenHeld t.len.toNat i → i ∉ registerOnly →
        (∃ k < t.len.toNat, Memory.read s.mem (t.src.toNat + k) = none) →
        ∀ u, exec i t ≠ .next u)

/-- R310: an instance of the core has each selector name a family whose gate is within CLAIMCAP, and
every step of another configuration is refused (how it is refused is notes/assumptions/12.md); the
defaults are TE and NT where their gate is claimed, else SU, else SA, else MK, and XO. -/
def Obligations.SelectorsWithinTheClaim : Prop :=
  (∀ s : State,
      let c := s.cfg.claimcap
      (step s = .refused .notAnInstance ↔
        ¬ ((s.cfg.sel32 = .nt → c.simd128 = true ∧ c.ptr64 = true)
          ∧ (s.cfg.sel32 = .su → c.simd128 = true ∧ c.crc32 = true ∧ c.aes = true)
          ∧ (s.cfg.sel32 = .sa → c.simd128 = true ∧ c.crc32 = true)
          ∧ (s.cfg.sel64 = .te → c.simd128 = true ∧ c.ptr64 = true)
          ∧ (s.cfg.sel64s = .te → c.simd128 = true ∧ c.ptr64 = true))))
    ∧ (∀ c : CapSet,
        (c.simd128 = true ∧ c.ptr64 = true →
          sel32Default c = .nt ∧ sel64Default c = .te ∧ sel64sDefault c = .te)
        ∧ (¬ (c.simd128 = true ∧ c.ptr64 = true) →
          sel64Default c = .xo ∧ sel64sDefault c = .xo
          ∧ sel32Default c
            = if c.simd128 = true ∧ c.crc32 = true ∧ c.aes = true then .su
              else if c.simd128 = true ∧ c.crc32 = true then .sa else .mk))

/-! ## Reset -/

/-- R370: a reset sets STATUS to 0 and every other register to unwritten, and changes neither the
configuration nor the input memory; nothing else clears FAULT. -/
def Obligations.ResetOfTheEngine : Prop :=
  (∀ (s : State) (rest : List HostAction), configAdmitted s.cfg = true →
      s.pending = .reset :: rest →
      ∃ t, step s = .next t ∧ t.done = false ∧ t.fault = false ∧ t.fcode = 0 ∧ t.lastOpc = 0
        ∧ readReg .status t = 0
        ∧ (∀ r ∈ [Reg.src, .len, .x0, .x1, .x2, .x3, .x4, .x5, .r0, .r1],
            regUnwritten r t = true)
        ∧ t.cfg = s.cfg ∧ t.mem = s.mem)
    ∧ (∀ s t : State, step s = .next t → s.fault = true → t.fault = false →
        ∃ rest, s.pending = .reset :: rest)

/-- R48, R371: after reset STATUS and CMD read 0, CAP and CONFIG read the parameters, every other
register is unwritten, and the engine waits. The parameters of `State.reset` are the model's choice
(notes/assumptions/3.md), and the idle step is its reading of "waits" (8.md). -/
def Obligations.StateAfterReset : Prop :=
  readReg .status State.reset = 0 ∧ readReg .cmd State.reset = 0
    ∧ readReg .cap State.reset = capWord State.reset.cfg.claimcap
    ∧ readReg .config State.reset = configWord State.reset.cfg
    ∧ (∀ r ∈ [Reg.src, .len, .x0, .x1, .x2, .x3, .x4, .x5, .r0, .r1],
        regUnwritten r State.reset = true)
    ∧ step State.reset = .next State.reset

/-! ## Primitives -/

/-- R100: NOP completes and writes no result register. -/
def Obligations.NopCompletes : Prop :=
  encode .nop = 0x00
    ∧ (∀ s : State, s.fault = false →
        exec .nop s = .next { s with done := true, lastOpc := 0x00 })
    ∧ (∃ t, step (State.reset.withFetchWord 64 0x00) = .next t
        ∧ readReg .status t = 0x0000000000000001 ∧ regUnwritten .r0 t = true
        ∧ regUnwritten .r1 t = true)

/-- R101: the little-endian fetches every datapath uses, and FETCH32. -/
def Obligations.Fetch32 : Prop :=
  (∀ (B : Bytes) (i : Nat), i + 4 ≤ B.length →
      fetch32 B i = some ((B.getD i 0).setWidth 32 ||| (B.getD (i + 1) 0).setWidth 32 <<< 8
        ||| (B.getD (i + 2) 0).setWidth 32 <<< 16 ||| (B.getD (i + 3) 0).setWidth 32 <<< 24))
    ∧ (∀ (B : Bytes) (i : Nat), i + 8 ≤ B.length →
        fetch64 B i = some ((B.getD i 0).setWidth 64 + (B.getD (i + 1) 0).setWidth 64 <<< 8
          + (B.getD (i + 2) 0).setWidth 64 <<< 16 + (B.getD (i + 3) 0).setWidth 64 <<< 24
          + (B.getD (i + 4) 0).setWidth 64 <<< 32 + (B.getD (i + 5) 0).setWidth 64 <<< 40
          + (B.getD (i + 6) 0).setWidth 64 <<< 48 + (B.getD (i + 7) 0).setWidth 64 <<< 56))
    ∧ encode .fetch32 = 0x01
    ∧ (∀ (s : State) (B : Bytes), s.fault = false → 4 ≤ B.length → BufferIs s B →
        ∃ w, fetch32 B 0 = some w
          ∧ exec .fetch32 s = .next (completedWith 0x01 (w.setWidth 64) 0 s))
    ∧ (∀ s : State, s.fault = false → s.len.toNat < 4 →
        exec .fetch32 s = .next (faultedWith 0x01 3 s))
    ∧ (∀ B C : Bytes, B.take 4 = C.take 4 → fetch32 B 0 = fetch32 C 0)
    ∧ fetch32 [0x61, 0x62, 0x63, 0x64] 0 = some 0x64636261

/-- R102: FETCH64; and, from R62, a 32-bit fetch is the low half of the 64-bit fetch at its
offset. -/
def Obligations.Fetch64 : Prop :=
  encode .fetch64 = 0x02
    ∧ (∀ (s : State) (B : Bytes), s.fault = false → 8 ≤ B.length → BufferIs s B →
        ∃ w, fetch64 B 0 = some w ∧ exec .fetch64 s = .next (completedWith 0x02 w 0 s))
    ∧ (∀ s : State, s.fault = false → s.len.toNat < 8 →
        exec .fetch64 s = .next (faultedWith 0x02 3 s))
    ∧ fetch64 [0x61, 0x62, 0x63, 0x64, 0x65, 0x66, 0x67, 0x68] 0 = some 0x6867666564636261
    ∧ (∀ (B : Bytes) (i : Nat), i + 8 ≤ B.length →
        ∃ w, fetch64 B i = some w ∧ fetch32 B i = some (w.setWidth 32))

/-- R103, R104: ROT32 and ROT64 rotate right by X1[4:0] and X1[5:0], and never shift by the width. -/
def Obligations.Rotates : Prop :=
  (∀ (v : U32) (r : Nat), r < 32 →
      rotate32 v r = if r = 0 then v else v >>> r ||| v <<< (32 - r))
    ∧ (∀ (v : U64) (r : Nat), r < 64 →
        rotate64 v r = if r = 0 then v else v >>> r ||| v <<< (64 - r))
    ∧ (∀ s : State, s.fault = false →
        exec .rot32 s = .next (completedWith 0x03
            (((s.x0.setWidth 32).rotateRight (s.x1.toNat % 32)).setWidth 64) 0 s)
        ∧ exec .rot64 s
          = .next (completedWith 0x04 (s.x0.rotateRight (s.x1.toNat % 64)) 0 s))
    ∧ rotate32 0x80000001 1 = 0xC0000000 ∧ rotate32 0x12345678 8 = 0x78123456
    ∧ rotate64 1 1 = 0x8000000000000000
    ∧ rotate64 0x0123456789ABCDEF 8 = 0xEF0123456789ABCD

/-- R105, R106: BSWAP32 and BSWAP64 reverse bytes, and are involutions. -/
def Obligations.ByteSwaps : Prop :=
  encode .bswap32 = 0x05 ∧ encode .bswap64 = 0x06
    ∧ (∀ v : U32, bswap32 v
        = (v.extractLsb' 0 8).setWidth 32 <<< 24 ||| (v.extractLsb' 8 8).setWidth 32 <<< 16
          ||| (v.extractLsb' 16 8).setWidth 32 <<< 8 ||| (v.extractLsb' 24 8).setWidth 32)
    ∧ (∀ v : U64, bswap64 v
        = (v.extractLsb' 0 8).setWidth 64 <<< 56 + (v.extractLsb' 8 8).setWidth 64 <<< 48
          + (v.extractLsb' 16 8).setWidth 64 <<< 40 + (v.extractLsb' 24 8).setWidth 64 <<< 32
          + (v.extractLsb' 32 8).setWidth 64 <<< 24 + (v.extractLsb' 40 8).setWidth 64 <<< 16
          + (v.extractLsb' 48 8).setWidth 64 <<< 8 + (v.extractLsb' 56 8).setWidth 64)
    ∧ (∀ v, bswap32 (bswap32 v) = v) ∧ (∀ v, bswap64 (bswap64 v) = v)
    ∧ (∀ s : State, s.fault = false →
        exec .bswap32 s
          = .next (completedWith 0x05 ((bswap32 (s.x0.setWidth 32)).setWidth 64) 0 s)
        ∧ exec .bswap64 s = .next (completedWith 0x06 (bswap64 s.x0) 0 s))
    ∧ bswap32 0x11223344 = 0x44332211 ∧ bswap64 0x1122334455667788 = 0x8877665544332211

/-- R107: FMIX, a bijection on u32. -/
def Obligations.Fmix : Prop :=
  encode .fmix = 0x07
    ∧ (∀ h : U32, fmix h =
        let h1 := h ^^^ (h >>> 16)
        let h2 := h1 * 0x85EBCA6B
        let h3 := h2 ^^^ (h2 >>> 13)
        let h4 := h3 * 0xC2B2AE35
        h4 ^^^ (h4 >>> 16))
    ∧ (∀ s : State, s.fault = false →
        exec .fmix s = .next (completedWith 0x07 ((fmix (s.x0.setWidth 32)).setWidth 64) 0 s))
    ∧ fmix 0 = 0 ∧ Function.Bijective fmix
    ∧ fmix 1 = 0x514E28B7 ∧ fmix 0xFFFFFFFF = 0x81F16F39 ∧ fmix 0x12345678 = 0xE37CD1BC

/-- R108: MUR, a bijection in `h` for a fixed `a`. -/
def Obligations.MurCommand : Prop :=
  encode .mur = 0x08
    ∧ (∀ a h : U32, mur a h =
        let a1 := rotate32 (a * 0xCC9E2D51) 17 * 0x1B873593
        rotate32 (h ^^^ a1) 19 * 5 + 0xE6546B64)
    ∧ (∀ s : State, s.fault = false →
        exec .mur s = .next (completedWith 0x08
          ((mur (s.x0.setWidth 32) (s.x1.setWidth 32)).setWidth 64) 0 s))
    ∧ mur 0 0 = 0xE6546B64 ∧ (∀ a, Function.Bijective (mur a))
    ∧ mur 1 2 = 0x26D04576 ∧ mur 0xFFFFFFFF 0xFFFFFFFF = 0xB849F5EE

/-- R109: SHIFTMIX, an involution that keeps bits 63:47. -/
def Obligations.ShiftMix : Prop :=
  encode .shiftmix = 0x09
    ∧ (∀ s : State, s.fault = false →
        exec .shiftmix s = .next (completedWith 0x09 (s.x0 ^^^ (s.x0 >>> 47)) 0 s))
    ∧ (∀ x : U64, shiftMix x = x ^^^ (x >>> 47)) ∧ shiftMix 0 = 0
    ∧ (∀ x : U64, (shiftMix x).extractLsb' 47 17 = x.extractLsb' 47 17)
    ∧ (∀ x : U64, shiftMix (shiftMix x) = x)
    ∧ shiftMix 0x8000000000000000 = 0x8000000000010000
    ∧ shiftMix 0xFFFFFFFFFFFFFFFF = 0xFFFFFFFFFFFE0000

/-- R111, with the three-operand form of R110: HL16 and HL16M. -/
def Obligations.HashLen16s : Prop :=
  encode .hl16 = 0x0A ∧ encode .hl16m = 0x0B
    ∧ (∀ u v mul : U64, hashLen16M u v mul =
        let a := (u ^^^ v) * mul
        let a := a ^^^ (a >>> 47)
        let b := (v ^^^ a) * mul
        let b := b ^^^ (b >>> 47)
        b * mul)
    ∧ (∀ u v : U64, hashLen16 u v = hashLen16M u v 0x9DDFEA08EB382D69)
    ∧ (∀ s : State, s.fault = false →
        exec .hl16 s = .next (completedWith 0x0A (hashLen16 s.x0 s.x1) 0 s)
        ∧ exec .hl16m s = .next (completedWith 0x0B (hashLen16M s.x0 s.x1 s.x2) 0 s))
    ∧ hashLen16 0 0 = 0 ∧ hashLen16 1 2 = 0x86668A560EC835A1
    ∧ hashLen16 0 1234567 = 0x75106DB890237A4A
    ∧ (∀ u v : U64, hashLen16M u v 0 = 0) ∧ (∀ mul : U64, hashLen16M 0 0 mul = 0)
    ∧ hashLen16M 1 2 k2 = 0xB1BB418E84DDDA0B

/-- R112, R113, R114: the debug scrambles, whatever DEBUG is; each is invertible. -/
def Obligations.Tweaks : Prop :=
  encode .tweak32 = 0x0C ∧ encode .tweak64 = 0x0D ∧ encode .tweak128 = 0x0E
    ∧ (∀ x : U32, tweak32 x = ~~~(bswap32 (x * 0xCC9E2D51)))
    ∧ (∀ x : U64, tweak64 x = ~~~(bswap64 (x * 0xB492B66FBE98F273)))
    ∧ (∀ lo hi : U64, tweak128 (lo, hi) =
        let y := tweak64 lo + tweak64 hi
        let z := tweak64 hi + y
        (y, z * 0xB492B66FBE98F273))
    ∧ (∀ s : State, s.fault = false →
        exec .tweak32 s
          = .next (completedWith 0x0C ((tweak32 (s.x0.setWidth 32)).setWidth 64) 0 s)
        ∧ exec .tweak64 s = .next (completedWith 0x0D (tweak64 s.x0) 0 s)
        ∧ exec .tweak128 s = .next (completedWith 0x0E (tweak128 (s.x0, s.x1)).1
            (tweak128 (s.x0, s.x1)).2 s))
    ∧ Function.Bijective tweak32 ∧ Function.Bijective tweak64 ∧ Function.Bijective tweak128
    ∧ tweak32 0 = 0xFFFFFFFF ∧ tweak32 1 = 0xAED26133 ∧ tweak32 0x12345678 = 0x078C2D0C
    ∧ tweak64 0 = 0xFFFFFFFFFFFFFFFF ∧ tweak64 1 = 0x8C0D674190496D4B
    ∧ tweak64 k2 = 0x826E8074D1FA8DEF
    ∧ tweak128 (0, 0) = (0xFFFFFFFFFFFFFFFE, 0xE247DCB0C43528A7)
    ∧ tweak128 (1, 2) = (0xA52935C3B0DD47E1, 0xA45DC9B3D10EF975)

/-! ## Length kernels -/

/-- R141: NA_LEN0TO16, by its four sub-cases. -/
def Obligations.NaLen0to16 : Prop :=
  encode .naLen0to16 = 0x10
    ∧ (∀ B : Bytes,
        let n := B.length
        let mul := k2 + 2 * nat64 n
        (8 ≤ n → n ≤ 16 → naLen0to16 B =
          let a := le64 B 0 + k2
          let b := le64 B (n - 8)
          let c := rotate64 b 37 * mul + a
          let d := (rotate64 a 25 + b) * mul
          some (hashLen16M c d mul))
        ∧ (4 ≤ n → n ≤ 7 → naLen0to16 B =
          some (hashLen16M (nat64 n + ((le32 B 0).setWidth 64 <<< 3))
            ((le32 B (n - 4)).setWidth 64) mul))
        ∧ (1 ≤ n → n ≤ 3 → naLen0to16 B =
          let y := (B.getD 0 0).setWidth 32 + ((B.getD (n / 2) 0).setWidth 32 <<< 8)
          let z := nat32 n + ((B.getD (n - 1) 0).setWidth 32 <<< 2)
          some (shiftMix ((y.setWidth 64 * k2) ^^^ (z.setWidth 64 * k0)) * k2))
        ∧ (n = 0 → naLen0to16 B = some 0x9AE16A3B2F90404F))
    ∧ (∀ (s : State) (B : Bytes), s.fault = false → B.length ≤ 16 → BufferIs s B →
        ∃ h, naLen0to16 B = some h ∧ exec .naLen0to16 s = .next (completedWith 0x10 h 0 s))
    ∧ (∀ s : State, s.fault = false → 16 < s.len.toNat →
        exec .naLen0to16 s = .next (faultedWith 0x10 3 s))
    ∧ naLen0to16 [0x61] = some 0xB3454265B6DF75E3
    ∧ naLen0to16 [0x61, 0x62, 0x63, 0x64] = some 0x1A5502DE4A1F8101
    ∧ naLen0to16 [0x61, 0x62, 0x63, 0x64, 0x65, 0x66, 0x67, 0x68] = some 0xFEE9D22990C82909

/-- R142: NA_LEN17TO32. -/
def Obligations.NaLen17to32 : Prop :=
  encode .naLen17to32 = 0x11
    ∧ (∀ B : Bytes, 17 ≤ B.length → B.length ≤ 32 → naLen17to32 B =
        let n := B.length
        let mul := k2 + 2 * nat64 n
        let a := le64 B 0 * k1
        let b := le64 B 8
        let c := le64 B (n - 8) * mul
        let d := le64 B (n - 16) * k2
        some (hashLen16M (rotate64 (a + b) 43 + rotate64 c 30 + d)
          (a + rotate64 (b + k2) 18 + c) mul))
    ∧ (∀ (s : State) (B : Bytes), s.fault = false → 17 ≤ B.length → B.length ≤ 32 →
        BufferIs s B →
        ∃ h, naLen17to32 B = some h ∧ exec .naLen17to32 s = .next (completedWith 0x11 h 0 s))
    ∧ (∀ s : State, s.fault = false → (s.len.toNat < 17 ∨ 32 < s.len.toNat) →
        exec .naLen17to32 s = .next (faultedWith 0x11 3 s))
    ∧ naLen17to32 (dataBuffer 17) = some 0xC5AA7EA87BFEE0C4
    ∧ naLen17to32 (dataBuffer 32) = some 0xDFD34F271D38B837

/-- R143: NA_LEN33TO64. -/
def Obligations.NaLen33to64 : Prop :=
  encode .naLen33to64 = 0x12
    ∧ (∀ B : Bytes, 33 ≤ B.length → B.length ≤ 64 → naLen33to64 B =
        let n := B.length
        let mul := k2 + 2 * nat64 n
        let a := le64 B 0 * k2
        let b := le64 B 8
        let c := le64 B (n - 8) * mul
        let d := le64 B (n - 16) * k2
        let y := rotate64 (a + b) 43 + rotate64 c 30 + d
        let z := hashLen16M y (a + rotate64 (b + k2) 18 + c) mul
        let e := le64 B 16 * mul
        let f := le64 B 24
        let g := (y + le64 B (n - 32)) * mul
        let h := (z + le64 B (n - 24)) * mul
        some (hashLen16M (rotate64 (e + f) 43 + rotate64 g 30 + h)
          (e + rotate64 (f + a) 18 + g) mul))
    ∧ (∀ (s : State) (B : Bytes), s.fault = false → 33 ≤ B.length → B.length ≤ 64 →
        BufferIs s B →
        ∃ h, naLen33to64 B = some h ∧ exec .naLen33to64 s = .next (completedWith 0x12 h 0 s))
    ∧ (∀ s : State, s.fault = false → (s.len.toNat < 33 ∨ 64 < s.len.toNat) →
        exec .naLen33to64 s = .next (faultedWith 0x12 3 s))
    ∧ naLen33to64 (dataBuffer 33) = some 0xBB21B4CAAD9991DA
    ∧ naLen33to64 (dataBuffer 64) = some 0x6A3157C8C0BAD83B

/-- R144, R145: the weak accumulator step on six registers (WEAK32) and on 32 bytes of the buffer
(WEAK32M). -/
def Obligations.WeakStep : Prop :=
  encode .weak32 = 0x13 ∧ encode .weak32m = 0x14
    ∧ (∀ w x y z a b : U64, weak32 w x y z a b =
        let a1 := a + w
        let b1 := rotate64 (b + a1 + z) 21
        let a2 := a1 + x + y
        (a2 + z, b1 + rotate64 a2 44 + a1))
    ∧ (∀ (B : Bytes) (i : Nat) (a b : U64), i + 32 ≤ B.length →
        weakMem B i a b
          = some (weak32 (le64 B i) (le64 B (i + 8)) (le64 B (i + 16)) (le64 B (i + 24)) a b))
    ∧ (∀ s : State, s.fault = false →
        exec .weak32 s = .next (completedWith 0x13
          (weak32 s.x0 s.x1 s.x2 s.x3 s.x4 s.x5).1 (weak32 s.x0 s.x1 s.x2 s.x3 s.x4 s.x5).2 s))
    ∧ (∀ (s : State) (B : Bytes), s.fault = false → 32 ≤ B.length → BufferIs s B →
        ∃ p, weakMem B 0 s.x0 s.x1 = some p
          ∧ exec .weak32m s = .next (completedWith 0x14 p.1 p.2 s))
    ∧ (∀ s : State, s.fault = false → s.len.toNat < 32 →
        exec .weak32m s = .next (faultedWith 0x14 3 s))
    ∧ (∀ (B C : Bytes) (a b : U64), B.take 32 = C.take 32 → weakMem B 0 a b = weakMem C 0 a b)
    ∧ weak32 0 0 0 0 0 0 = (0, 0) ∧ weak32 1 2 3 4 5 6 = (0xF, 0x800000B00006)
    ∧ weakMem (dataBuffer 32) 0 0 0 = some (0x94460C89709F238F, 0x108B56B150265B64)
    ∧ weakMem (dataBuffer 32) 0 1 2 = some (0x94460C89709F2390, 0x108B6EB150365B65)

/-- R147: on every buffer of its bucket an NA kernel command leaves the result NA_H64 leaves. -/
def Obligations.KernelsAgreeWithTheFamily : Prop :=
  ∀ (s : State) (B : Bytes), s.fault = false → BufferIs s B →
    ∃ h, naHash64 B = some h ∧ exec .naH64 s = .next (completedWith 0x40 h 0 s)
      ∧ (B.length ≤ 16 → exec .naLen0to16 s = .next (completedWith 0x10 h 0 s))
      ∧ (17 ≤ B.length → B.length ≤ 32 →
          exec .naLen17to32 s = .next (completedWith 0x11 h 0 s))
      ∧ (33 ≤ B.length → B.length ≤ 64 →
          exec .naLen33to64 s = .next (completedWith 0x12 h 0 s))

/-- R191, R192, with the mixing step of R190: the XO kernels. -/
def Obligations.XoKernels : Prop :=
  encode .xoH32 = 0x18 ∧ encode .xoLen33to64 = 0x19 ∧ encode .xoLen65to96 = 0x1A
    ∧ (∀ (B : Bytes) (o m : Nat) (mul seed0 seed1 : U64), 16 ≤ m → o + m ≤ B.length →
        xoH32 B o m mul seed0 seed1 =
          let a := le64 B o * k1
          let b := le64 B (o + 8)
          let c := le64 B (o + m - 8) * mul
          let d := le64 B (o + m - 16) * k2
          let u := rotate64 (a + b) 43 + rotate64 c 30 + d + seed0
          let v := a + rotate64 (b + k2) 18 + c + seed1
          let a' := shiftMix ((u ^^^ v) * mul)
          some (shiftMix ((v ^^^ a') * mul)))
    ∧ (∀ B : Bytes, 33 ≤ B.length → B.length ≤ 64 →
        let mul1 := k2 - 30 + 2 * nat64 B.length
        ∃ h0 h1, xoH32 B 0 32 (k2 - 30) 0 0 = some h0
          ∧ xoH32 B (B.length - 32) 32 mul1 0 0 = some h1
          ∧ xoLen33to64 B = some ((h1 * mul1 + h0) * mul1))
    ∧ (∀ B : Bytes, 65 ≤ B.length → B.length ≤ 96 →
        let mul1 := k2 - 114 + 2 * nat64 B.length
        ∃ h0 h1 h2, xoH32 B 0 32 (k2 - 114) 0 0 = some h0 ∧ xoH32 B 32 32 mul1 0 0 = some h1
          ∧ xoH32 B (B.length - 32) 32 mul1 h0 h1 = some h2
          ∧ xoLen65to96 B = some ((h2 * 9 + (h0 >>> 17) + (h1 >>> 21)) * mul1))
    ∧ (∀ (s : State) (B : Bytes), s.fault = false → BufferIs s B →
        (16 ≤ B.length → ∃ h, xoH32 B 0 B.length s.x0 s.x1 s.x2 = some h
          ∧ exec .xoH32 s = .next (completedWith 0x18 h 0 s))
        ∧ (33 ≤ B.length → B.length ≤ 64 → ∃ h, xoLen33to64 B = some h
          ∧ exec .xoLen33to64 s = .next (completedWith 0x19 h 0 s))
        ∧ (65 ≤ B.length → B.length ≤ 96 → ∃ h, xoLen65to96 B = some h
          ∧ exec .xoLen65to96 s = .next (completedWith 0x1A h 0 s)))
    ∧ (∀ s : State, s.fault = false →
        (s.len.toNat < 16 → exec .xoH32 s = .next (faultedWith 0x18 3 s))
        ∧ ((s.len.toNat < 33 ∨ 64 < s.len.toNat) →
          exec .xoLen33to64 s = .next (faultedWith 0x19 3 s))
        ∧ ((s.len.toNat < 65 ∨ 96 < s.len.toNat) →
          exec .xoLen65to96 s = .next (faultedWith 0x1A 3 s)))
    ∧ xoH32 (dataBuffer 32) 0 32 (k2 - 30) 0 0 = some 0xB02719916E3A8B98
    ∧ xoH32 (dataBuffer 32) 0 32 (k2 - 30) 1 2 = some 0x5D0D06616631F739
    ∧ xoLen33to64 (dataBuffer 33) = some 0xC57158FEC5F502BE
    ∧ xoLen33to64 (dataBuffer 64) = some 0x8C07A3413E2F8188
    ∧ xoLen65to96 (dataBuffer 65) = some 0xFF36587638D3482B
    ∧ xoLen65to96 (dataBuffer 96) = some 0x4FBA6BC683A18607

/-- R240, R241, R242: the MK kernels. Each byte of the first is taken as signed. -/
def Obligations.MkKernels : Prop :=
  encode .mkLen0to4 = 0x20 ∧ encode .mkLen5to12 = 0x21 ∧ encode .mkLen13to24 = 0x22
    ∧ (∀ (B : Bytes) (seed : U32), B.length ≤ 4 → mkLen0to4 B seed =
        let r := B.foldl (fun (p : U32 × U32) (v : Byte) =>
          let b := p.1 * c1 + (if v.toNat < 128 then v.setWidth 32
            else v.setWidth 32 + 0xFFFFFF00)
          (b, p.2 ^^^ b)) (seed, 9)
        fmix (mur r.1 (mur (nat32 B.length) r.2)))
    ∧ (∀ (B : Bytes) (seed : U32), 5 ≤ B.length → B.length ≤ 12 → mkLen5to12 B seed =
        let n := B.length
        let a := nat32 n + le32 B 0
        let b := nat32 n * 5 + le32 B (n - 4)
        let c := 9 + le32 B (if n < 8 then 0 else 4)
        let d := nat32 n * 5 + seed
        some (fmix (seed ^^^ mur c (mur b (mur a d)))))
    ∧ (∀ (B : Bytes) (seed : U32), 13 ≤ B.length → B.length ≤ 24 → mkLen13to24 B seed =
        let n := B.length
        let b := le32 B 4
        let c := le32 B (n - 8)
        let d := le32 B (n / 2)
        let e := le32 B 0
        let f := le32 B (n - 4)
        let a1 := rotate32 (le32 B (n / 2 - 4)) 12 + f
        let h1 := mur c (d * c1 + nat32 n + seed) + a1
        let a2 := rotate32 a1 3 + c
        let h2 := mur e h1 + a2
        let a3 := rotate32 (a2 + f) 12 + d
        some (fmix (mur (b ^^^ seed) h2 + a3)))
    ∧ (∀ (s : State) (B : Bytes), s.fault = false → BufferIs s B →
        (B.length ≤ 4 → exec .mkLen0to4 s
          = .next (completedWith 0x20 ((mkLen0to4 B (s.x0.setWidth 32)).setWidth 64) 0 s))
        ∧ (5 ≤ B.length → B.length ≤ 12 → ∃ h, mkLen5to12 B (s.x0.setWidth 32) = some h
          ∧ exec .mkLen5to12 s = .next (completedWith 0x21 (h.setWidth 64) 0 s))
        ∧ (13 ≤ B.length → B.length ≤ 24 → ∃ h, mkLen13to24 B (s.x0.setWidth 32) = some h
          ∧ exec .mkLen13to24 s = .next (completedWith 0x22 (h.setWidth 64) 0 s)))
    ∧ (∀ s : State, s.fault = false →
        (4 < s.len.toNat → exec .mkLen0to4 s = .next (faultedWith 0x20 3 s))
        ∧ ((s.len.toNat < 5 ∨ 12 < s.len.toNat) →
          exec .mkLen5to12 s = .next (faultedWith 0x21 3 s))
        ∧ ((s.len.toNat < 13 ∨ 24 < s.len.toNat) →
          exec .mkLen13to24 s = .next (faultedWith 0x22 3 s)))
    ∧ (∀ seed : U32, mkLen0to4 [] seed = fmix (mur seed (mur 0 9)))
    ∧ mkLen0to4 [] 0 = 0xDC56D17A ∧ mkLen0to4 [0x61] 0 = 0x3C973D4D
    ∧ mkLen0to4 [0x61, 0x62, 0x63] 0 = 0x2F635EC7 ∧ mkLen0to4 [0x61] 1 = 0x16AA0F9D
    ∧ mkLen0to4 [0x80] 0 = 0x2FC8696B
    ∧ mkLen5to12 [0x61, 0x62, 0x63, 0x64, 0x65] 0 = some 0xA3F366AC
    ∧ mkLen5to12 [0x61, 0x62, 0x63, 0x64, 0x65] 1 = some 0x5ECFBA04
    ∧ mkLen5to12 (dataBuffer 12) 0 = some 0x3CE781AC
    ∧ mkLen13to24 (dataBuffer 13) 0 = some 0x38819BBB
    ∧ mkLen13to24 (dataBuffer 24) 0 = some 0x0208A5C5
    ∧ mkLen13to24 (dataBuffer 13) 1 = some 0x75956D45

/-- R280, R281, R282: the CC kernels, the first two of which agree with MK's at seed 0. -/
def Obligations.CcKernels : Prop :=
  encode .ccLen0to4 = 0x24 ∧ encode .ccLen5to12 = 0x25 ∧ encode .ccLen13to24 = 0x26
    ∧ (∀ B : Bytes, ccLen0to4 B = mkLen0to4 B 0)
    ∧ (∀ B : Bytes, 5 ≤ B.length → B.length ≤ 12 → ccLen5to12 B =
        let n := B.length
        let a := nat32 n + le32 B 0
        let b := nat32 n * 5 + le32 B (n - 4)
        let c := 9 + le32 B (if n < 8 then 0 else 4)
        some (fmix (mur c (mur b (mur a (nat32 n * 5))))))
    ∧ (∀ B : Bytes, ccLen5to12 B = mkLen5to12 B 0)
    ∧ (∀ B : Bytes, 13 ≤ B.length → B.length ≤ 24 → ccLen13to24 B =
        let n := B.length
        let a := le32 B (n / 2 - 4)
        let b := le32 B 4
        let c := le32 B (n - 8)
        let d := le32 B (n / 2)
        let e := le32 B 0
        let f := le32 B (n - 4)
        some (fmix (mur f (mur e (mur d (mur c (mur b (mur a (nat32 n)))))))))
    ∧ (∀ (s : State) (B : Bytes), s.fault = false → BufferIs s B →
        (B.length ≤ 4 → exec .ccLen0to4 s
          = .next (completedWith 0x24 ((ccLen0to4 B).setWidth 64) 0 s))
        ∧ (5 ≤ B.length → B.length ≤ 12 → ∃ h, ccLen5to12 B = some h
          ∧ exec .ccLen5to12 s = .next (completedWith 0x25 (h.setWidth 64) 0 s))
        ∧ (13 ≤ B.length → B.length ≤ 24 → ∃ h, ccLen13to24 B = some h
          ∧ exec .ccLen13to24 s = .next (completedWith 0x26 (h.setWidth 64) 0 s)))
    ∧ (∀ s : State, s.fault = false →
        (4 < s.len.toNat → exec .ccLen0to4 s = .next (faultedWith 0x24 3 s))
        ∧ ((s.len.toNat < 5 ∨ 12 < s.len.toNat) →
          exec .ccLen5to12 s = .next (faultedWith 0x25 3 s))
        ∧ ((s.len.toNat < 13 ∨ 24 < s.len.toNat) →
          exec .ccLen13to24 s = .next (faultedWith 0x26 3 s)))
    ∧ ccLen0to4 [] = 0xDC56D17A ∧ ccLen0to4 [0x61, 0x62, 0x63] = 0x2F635EC7
    ∧ ccLen5to12 [0x61, 0x62, 0x63, 0x64, 0x65] = some 0xA3F366AC
    ∧ ccLen13to24 (dataBuffer 13) = some 0x034A3EE0
    ∧ ccLen13to24 (dataBuffer 24) = some 0x3D980727

/-- R285: CC_CITYMURMUR, both branches in full; above 16 bytes the loop runs
`ceil((m - 16) / 16) = (m - 1) / 16` times. -/
def Obligations.CityMurmur : Prop :=
  encode .ccCitymurmur = 0x27
    ∧ (∀ (S : Bytes) (lo hi : U64), S.length ≤ 16 →
        ∃ h, naLen0to16 S = some h ∧ (S = [] → h = k2) ∧ cityMurmur S lo hi =
          let a := shiftMix (lo * k1) * k1
          let c := hi * k1 + h
          let d := shiftMix (a + (if 8 ≤ S.length then le64 S 0 else c))
          let a' := hashLen16 a c
          let b' := hashLen16 d hi
          some (a' ^^^ b', hashLen16 b' a'))
    ∧ (∀ (S : Bytes) (lo hi : U64), 16 < S.length → cityMurmur S lo hi =
        let m := S.length
        let c := hashLen16 (le64 S (m - 8) + k1) lo
        let d := hashLen16 (hi + nat64 m) (c + le64 S (m - 16))
        let round := fun (s : CityAcc) (j : Nat) =>
          let p := 16 * j
          let a := (s.a ^^^ (shiftMix (le64 S p * k1) * k1)) * k1
          let c := (s.c ^^^ (shiftMix (le64 S (p + 8) * k1) * k1)) * k1
          CityAcc.mk a (s.b ^^^ a) c (s.d ^^^ c)
        let s := (List.range ((m - 1) / 16)).foldl round (CityAcc.mk (lo + d) hi c d)
        let a := hashLen16 s.a s.c
        let b := hashLen16 s.d s.b
        some (a ^^^ b, hashLen16 b a))
    ∧ (∀ (s : State) (B : Bytes), s.fault = false → B.length ≤ 127 → BufferIs s B →
        ∃ p, cityMurmur B s.x0 s.x1 = some p
          ∧ exec .ccCitymurmur s = .next (completedWith 0x27 p.1 p.2 s))
    ∧ (∀ s : State, s.fault = false → 127 < s.len.toNat →
        exec .ccCitymurmur s = .next (faultedWith 0x27 3 s))
    ∧ cityMurmur [] 0 0 = some (0xFCF7CC0ECF416467, 0xB2369ACFCCF83DBF)
    ∧ cityMurmur (dataBuffer 17) 1 2 = some (0xB6CC31B6A667523C, 0x8AB0F371B883557D)

/-! ## Families -/

/-- R170, R171, R173 to R176, with the refold of R172: the NA family, by length bucket, with the long
path as R171 writes it, and by its seeded forms; NA's hash is also the Fingerprint64 function. -/
def Obligations.NaFamily : Prop :=
  encode .naH64 = 0x40 ∧ encode .naH64s = 0x41 ∧ encode .naH64ss = 0x42
    ∧ (∀ B : Bytes, naHash64 B =
        if B.length ≤ 16 then naLen0to16 B else if B.length ≤ 32 then naLen17to32 B
        else if B.length ≤ 64 then naLen33to64 B else naLong64 B)
    ∧ (∀ B : Bytes, 64 < B.length → naLong64 B =
        let n := B.length
        let weak := fun (p : Nat) (a b : U64) =>
          weak32 (le64 B p) (le64 B (p + 8)) (le64 B (p + 16)) (le64 B (p + 24)) a b
        let y0 : U64 := 81 * k1 + 113
        let start := NaAcc.mk (81 * k2 + le64 B 0) y0 (shiftMix (y0 * k2 + 113) * k2) 0 0 0 0
        let block := fun (s : NaAcc) (j : Nat) =>
          let p := 64 * j
          let x := (rotate64 (s.x + s.y + s.v1 + le64 B (p + 8)) 37 * k1) ^^^ s.w2
          let y := rotate64 (s.y + s.v2 + le64 B (p + 48)) 42 * k1 + s.v1 + le64 B (p + 40)
          let z := rotate64 (s.z + s.w1) 33 * k1
          let v := weak p (s.v2 * k1) (x + s.w1)
          let w := weak (p + 32) (z + s.w2) (y + le64 B (p + 16))
          NaAcc.mk z y x v.1 v.2 w.1 w.2
        let s := (List.range ((n - 1) / 64)).foldl block start
        let mul := k1 + ((s.z &&& 0xFF) <<< 1)
        let q := n - 64
        let w0 := s.w1 + nat64 ((n - 1) % 64)
        let v1 := s.v1 + w0
        let w1 := w0 + v1
        let x := (rotate64 (s.x + s.y + v1 + le64 B (q + 8)) 37 * mul) ^^^ (s.w2 * 9)
        let y := rotate64 (s.y + s.v2 + le64 B (q + 48)) 42 * mul + v1 * 9 + le64 B (q + 40)
        let z := rotate64 (s.z + w1) 33 * mul
        let v := weak q (s.v2 * mul) (x + w1)
        let w := weak (q + 32) (z + s.w2) (y + le64 B (q + 16))
        some (hashLen16M (hashLen16M v.1 w.1 mul + shiftMix y * k0 + x)
          (hashLen16M v.2 w.2 mul + z) mul))
    ∧ (∀ (B : Bytes) (s0 s1 : U64), ∃ h, naHash64 B = some h
        ∧ naHash64WithSeeds B s0 s1 = some (hashLen16 (h - s0) s1)
        ∧ naHash64WithSeed B s1 = some (hashLen16 (h - k2) s1))
    ∧ (∀ (s : State) (B : Bytes), s.fault = false → BufferIs s B →
        ∃ h, naHash64 B = some h ∧ exec .naH64 s = .next (completedWith 0x40 h 0 s)
          ∧ exec .fp64 s = .next (completedWith 0x91 h 0 s)
          ∧ exec .naH64s s = .next (completedWith 0x41 (hashLen16 (h - k2) s.x0) 0 s)
          ∧ exec .naH64ss s = .next (completedWith 0x42 (hashLen16 (h - s.x0) s.x1) 0 s))
    ∧ naHash64 [] = some k2 ∧ (∀ seed, naHash64WithSeed [] seed = some (hashLen16 0 seed))
    ∧ naHash64WithSeed [] 0 = some 0
    ∧ (∀ (B : Bytes) (h : U64), naHash64 B = some h → naHash64WithSeeds B h 0 = some 0)
    ∧ (∀ (B : Bytes) (seed : U64), naHash64WithSeeds B k2 seed = naHash64WithSeed B seed)
    ∧ naHash64 (dataBuffer 65) = some 0x32B4A7B126581B47
    ∧ naHash64 (dataBuffer 128) = some 0x2DCAB320149CD602
    ∧ naHash64WithSeed [] 1234567 = some 0x75106DB890237A4A
    ∧ naHash64WithSeed [] 0x1234 = some 0x86186E5F6E017134
    ∧ naHash64WithSeeds [] 1234567 k0 = some 0x3FEAC5F636039766
    ∧ naHash64WithSeeds [] 1 2 = some 0xF846BC39066A4ACE

/-- R181 to R183, R185, R186, with the fold of R180: the UO family, its long path as R181 writes it,
and UO_H. -/
def Obligations.UoFamily : Prop :=
  encode .uoH = 0x1C ∧ encode .uoH64 = 0x44 ∧ encode .uoH64s = 0x45 ∧ encode .uoH64ss = 0x46
    ∧ (∀ (x y mul : U64) (r : Nat), uoFold x y mul r =
        let a := (x ^^^ y) * mul
        let b := (y ^^^ (a ^^^ (a >>> 47))) * mul
        rotate64 b r * mul)
    ∧ (∀ s : State, s.fault = false →
        exec .uoH s
          = .next (completedWith 0x1C (uoFold s.x0 s.x1 s.x2 (s.x3.toNat % 64)) 0 s))
    ∧ (∀ (B : Bytes) (s0 s1 : U64), B.length ≤ 64 →
        uoHash64 B = naHash64 B ∧ uoHash64WithSeed B s0 = naHash64WithSeed B s0
        ∧ uoHash64WithSeeds B s0 s1 = naHash64WithSeeds B s0 s1)
    ∧ (∀ (B : Bytes) (seed : U64), 64 < B.length →
        uoHash64 B = uoHash64WithSeeds B 81 0
        ∧ uoHash64WithSeed B seed = uoHash64WithSeeds B 0 seed)
    ∧ (∀ (B : Bytes) (seed0 seed1 : U64), 64 < B.length → uoHash64WithSeeds B seed0 seed1 =
        let n := B.length
        let weak := fun (p : Nat) (a b : U64) =>
          weak32 (le64 B p) (le64 B (p + 8)) (le64 B (p + 16)) (le64 B (p + 24)) a b
        let y0 := seed1 * k2 + 113
        let z0 := shiftMix (y0 * k2) * k2
        let u0 := seed0 - z0
        let start := UoAcc.mk u0 seed0 seed1 0 0 (seed0 * k2) y0 z0
        let mul := k2 + (u0 &&& 0x82)
        let block := fun (s : UoAcc) (j : Nat) =>
          let a := fun (i : Nat) => le64 B (64 * j + 8 * i)
          let x := rotate64 (s.x + a 0 + a 1) 26 * 9
          let y := rotate64 (s.y + a 2) 29
          let v1 := rotate64 (s.v1 + a 4) 33 + a 2
          let v2 := rotate64 (s.v2 + a 5 + a 1) 30 + a 3
          let w1 := ((s.w1 + a 6) ^^^ x) * 9 + a 4
          let z := rotate64 ((s.z + a 3) * mul) 32 + (s.w2 + a 7)
          let w2 := s.w2 + a 7 + z + a 5 + a 6
          let u := z * 9 + a 0 + a 6
          let x := x + a 1
          let y' := s.u + a 7 + v1
          let v1 := v1 + x - y'
          let v2 := v2 + w1
          let w1 := w1 + v2
          let w2 := w2 + x - y'
          UoAcc.mk u v1 v2 w1 (rotate64 w2 34) (x + w2) y' y
        let s := (List.range ((n - 1) / 64)).foldl block start
        let q := n - 64
        let v2 := rotate64 s.v2 28
        let v1 := rotate64 s.v1 20
        let w1 := s.w1 + nat64 ((n - 1) % 64)
        let u := s.u * 9 + s.y
        let y0 := s.y + u
        let x := (rotate64 (y0 - s.x + v1 + le64 B (q + 8)) 37 * mul) ^^^ (s.w2 * 9)
        let y := rotate64 (y0 ^^^ v2 ^^^ le64 B (q + 48)) 42 * mul + v1 + le64 B (q + 40)
        let z := rotate64 (s.z + w1) 33 * mul
        let v := weak q (v2 * mul) (x + w1)
        let w := weak (q + 32) (z + s.w2) (y + le64 B (q + 16))
        some (uoFold (hashLen16M (v.1 + x) (w.1 ^^^ y) mul + z - u)
          (uoFold (v.2 + y) (w.2 + z) k2 30 ^^^ x) k2 31))
    ∧ (∀ (s : State) (B : Bytes), s.fault = false → BufferIs s B →
        (∃ h, uoHash64 B = some h ∧ exec .uoH64 s = .next (completedWith 0x44 h 0 s))
        ∧ (∃ h, uoHash64WithSeed B s.x0 = some h
            ∧ exec .uoH64s s = .next (completedWith 0x45 h 0 s))
        ∧ (∃ h, uoHash64WithSeeds B s.x0 s.x1 = some h
            ∧ exec .uoH64ss s = .next (completedWith 0x46 h 0 s)))
    ∧ uoFold 1 2 3 0 = 0x63 ∧ uoFold 1 2 k2 30 = 0x912389F50F06B04D
    ∧ uoHash64 (dataBuffer 65) = some 0xEAE100CFAA15FA49
    ∧ uoHash64WithSeed (dataBuffer 65) 0x1234 = some 0xCB0CF725FCEE6E4C
    ∧ uoHash64WithSeeds (dataBuffer 65) 1 2 = some 0x644856B56C14F259

/-- R194 to R197, with the buckets of R193: the XO family. -/
def Obligations.XoFamily : Prop :=
  encode .xoH64 = 0x48 ∧ encode .xoH64s = 0x49 ∧ encode .xoH64ss = 0x4A
    ∧ (∀ B : Bytes, xoHash64 B =
        if B.length ≤ 16 then naLen0to16 B else if B.length ≤ 32 then naLen17to32 B
        else if B.length ≤ 64 then xoLen33to64 B else if B.length ≤ 96 then xoLen65to96 B
        else if B.length ≤ 256 then naHash64 B else uoHash64 B)
    ∧ (∀ B : Bytes, (B.length ≤ 32 ∨ 97 ≤ B.length ∧ B.length ≤ 256 →
          xoHash64 B = naHash64 B)
        ∧ (257 ≤ B.length → xoHash64 B = uoHash64 B))
    ∧ (∀ (B : Bytes) (s0 s1 : U64), xoHash64WithSeed B s0 = uoHash64WithSeed B s0
        ∧ xoHash64WithSeeds B s0 s1 = uoHash64WithSeeds B s0 s1)
    ∧ (∀ (s : State) (B : Bytes), s.fault = false → BufferIs s B →
        (∃ h, xoHash64 B = some h ∧ exec .xoH64 s = .next (completedWith 0x48 h 0 s))
        ∧ (∃ h, uoHash64WithSeed B s.x0 = some h
            ∧ exec .xoH64s s = .next (completedWith 0x49 h 0 s)
            ∧ exec .uoH64s s = .next (completedWith 0x45 h 0 s))
        ∧ (∃ h, uoHash64WithSeeds B s.x0 s.x1 = some h
            ∧ exec .xoH64ss s = .next (completedWith 0x4A h 0 s)
            ∧ exec .uoH64ss s = .next (completedWith 0x46 h 0 s)))
    ∧ xoHash64 (dataBuffer 33) = some 0xC57158FEC5F502BE
    ∧ xoHash64 (dataBuffer 97) = some 0x5473E4A437040D18
    ∧ naHash64 (dataBuffer 97) = some 0x5473E4A437040D18
    ∧ xoHash64WithSeed (dataBuffer 65) 0x1234 = some 0xCB0CF725FCEE6E4C
    ∧ xoHash64WithSeeds (dataBuffer 65) 1 2 = some 0x644856B56C14F259

/-- R221 to R223, R228, R229: TE is XO below 512 bytes and the opaque long path from there on, NT is
the low half of TE, and both are gated at every length. -/
def Obligations.TeAndNtFamilies : Prop :=
  (∀ (B : Bytes) (s0 s1 : U64), B.length < 512 →
      teHash64 B = xoHash64 B ∧ teHash64WithSeed B s0 = xoHash64WithSeed B s0
      ∧ teHash64WithSeeds B s0 s1 = xoHash64WithSeeds B s0 s1)
    ∧ (∀ (B : Bytes) (s0 s1 : U64), 512 ≤ B.length →
        teHash64 B = some (Config.teLong0 B)
        ∧ teHash64WithSeed B s0 = some (Config.teLong1 B s0)
        ∧ teHash64WithSeeds B s0 s1 = some (Config.teLong2 B s0 s1))
    ∧ (∀ (B : Bytes) (seed : U32), ntHash32 B = (teHash64 B).map (fun h => h.setWidth 32)
        ∧ ntHash32WithSeed B seed
          = (teHash64WithSeed B (seed.setWidth 64)).map (fun h => h.setWidth 32))
    ∧ (∀ (s : State) (B : Bytes), s.fault = false →
        s.cfg.hwcap.simd128 = true → s.cfg.hwcap.ptr64 = true → BufferIs s B →
        (∃ h, teHash64 B = some h ∧ exec .teH64 s = .next (completedWith 0x4C h 0 s)
          ∧ exec .ntH32 s = .next (completedWith 0x50 ((h.setWidth 32).setWidth 64) 0 s))
        ∧ (∃ h, teHash64WithSeed B s.x0 = some h
            ∧ exec .teH64s s = .next (completedWith 0x4D h 0 s))
        ∧ (∃ h, teHash64WithSeeds B s.x0 s.x1 = some h
            ∧ exec .teH64ss s = .next (completedWith 0x4E h 0 s))
        ∧ (∃ h, teHash64WithSeed B ((s.x0.setWidth 32).setWidth 64) = some h
            ∧ exec .ntH32s s = .next (completedWith 0x51 ((h.setWidth 32).setWidth 64) 0 s)))
    ∧ (∀ (s : State) (i : Instr), s.fault = false →
        ¬ (s.cfg.hwcap.simd128 = true ∧ s.cfg.hwcap.ptr64 = true) →
        i ∈ [.teH64, .teH64s, .teH64ss, .ntH32, .ntH32s] →
        exec i s = .next (faultedWith i.opc 2 s))

/-- R243 to R246: the MK family, its long path as R243 writes it. -/
def Obligations.MkFamily : Prop :=
  encode .mkH32 = 0x54 ∧ encode .mkH32s = 0x55
    ∧ (∀ B : Bytes, mkHash32 B =
        if B.length ≤ 4 then some (mkLen0to4 B 0) else if B.length ≤ 12 then mkLen5to12 B 0
        else if B.length ≤ 24 then mkLen13to24 B 0 else mkLong32 B)
    ∧ (∀ B : Bytes, 24 < B.length → mkLong32 B =
        let n := B.length
        let mix := fun (w : U32) => rotate32 (w * c1) 17 * c2
        let add := fun (h a : U32) (r : Nat) => rotate32 (h ^^^ a) r * 5 + 0xE6546B64
        let tail := fun (o : Nat) => mix (le32 B (n - o))
        let h0 := add (add (nat32 n) (tail 4) 19) (tail 16) 19
        let g0 := add (add (c1 * nat32 n) (tail 8) 19) (tail 12) 19
        let f0 := rotate32 (c1 * nat32 n + tail 20) 19 + 113
        let block := fun (s : Acc32) (j : Nat) =>
          let a := le32 B (20 * j)
          let b := le32 B (20 * j + 4)
          let c := le32 B (20 * j + 8)
          let d := le32 B (20 * j + 12)
          let e := le32 B (20 * j + 16)
          let h := mur d (s.h + a) + e
          let g := mur c (s.g + b) + a
          let f := mur (b + e * c1) (s.f + c) + d + g
          Acc32.mk h (g + f) f
        let s := (List.range ((n - 1) / 20)).foldl block (Acc32.mk h0 g0 f0)
        let g := rotate32 (rotate32 s.g 11 * c1) 17 * c1
        let f := rotate32 (rotate32 s.f 11 * c1) 17 * c1
        let h := rotate32 (rotate32 (s.h + g) 19 * 5 + 0xE6546B64) 17 * c1
        some (rotate32 (rotate32 (h + f) 19 * 5 + 0xE6546B64) 17 * c1))
    ∧ (∀ (B : Bytes) (seed : U32),
        (B.length ≤ 4 → mkHash32WithSeed B seed = some (mkLen0to4 B seed))
        ∧ (5 ≤ B.length → B.length ≤ 12 → mkHash32WithSeed B seed = mkLen5to12 B seed)
        ∧ (13 ≤ B.length → B.length ≤ 24 →
            mkHash32WithSeed B seed = mkLen13to24 B (seed * c1))
        ∧ (24 < B.length → ∃ h t, mkLen13to24 (B.take 24) (seed ^^^ nat32 B.length) = some h
            ∧ mkHash32 (B.drop 24) = some t
            ∧ mkHash32WithSeed B seed = some (mur (t + seed) h)))
    ∧ (∀ B : Bytes, B.length ≤ 24 → mkHash32WithSeed B 0 = mkHash32 B)
    ∧ (∀ (s : State) (B : Bytes), s.fault = false → BufferIs s B →
        (∃ h, mkHash32 B = some h
          ∧ exec .mkH32 s = .next (completedWith 0x54 (h.setWidth 64) 0 s)
          ∧ exec .fp32 s = .next (completedWith 0x90 (h.setWidth 64) 0 s))
        ∧ (∃ h, mkHash32WithSeed B (s.x0.setWidth 32) = some h
            ∧ exec .mkH32s s = .next (completedWith 0x55 (h.setWidth 64) 0 s)))
    ∧ mkHash32 [] = some 0xDC56D17A ∧ mkHash32 [0x61, 0x62, 0x63] = some 0x2F635EC7
    ∧ mkHash32 (dataBuffer 25) = some 0x1B9D1388 ∧ mkHash32 (dataBuffer 45) = some 0x65ACEDA0
    ∧ mkHash32WithSeed [] 0x1234 = some 0x22EB2926
    ∧ mkHash32WithSeed (dataBuffer 25) 0 = some 0x587E59F6
    ∧ mkHash32WithSeed (dataBuffer 25) 0x1234 = some 0x08610356

/-- R261 to R264, R266 to R269: SU and SA are MK's small kernels up to 24 bytes and opaque long paths
from there on, each behind its gate at every length. -/
def Obligations.SuAndSaFamilies : Prop :=
  encode .suH32 = 0x58 ∧ encode .suH32s = 0x59 ∧ encode .saH32 = 0x5C ∧ encode .saH32s = 0x5D
    ∧ (∀ (B : Bytes) (seed : U32), B.length ≤ 24 →
        suHash32 B = mkHash32 B ∧ saHash32 B = mkHash32 B
        ∧ suHash32WithSeed B seed = mkHash32WithSeed B seed
        ∧ saHash32WithSeed B seed = mkHash32WithSeed B seed)
    ∧ (∀ (B : Bytes) (seed : U32), 24 < B.length →
        suHash32 B = some (Config.suLong0 B) ∧ saHash32 B = some (Config.saLong0 B)
        ∧ suHash32WithSeed B seed = some (Config.suLong1 B seed)
        ∧ saHash32WithSeed B seed = some (Config.saLong1 B seed))
    ∧ (∀ B : Bytes,
        (B.length ≤ 4 → suHash32 B = some (mkLen0to4 B 0))
        ∧ (5 ≤ B.length → B.length ≤ 12 → suHash32 B = mkLen5to12 B 0)
        ∧ (13 ≤ B.length → B.length ≤ 24 → suHash32 B = mkLen13to24 B 0))
    ∧ (∀ (B : Bytes) (seed : U32),
        (B.length ≤ 4 → suHash32WithSeed B seed = some (mkLen0to4 B seed))
        ∧ (5 ≤ B.length → B.length ≤ 12 → suHash32WithSeed B seed = mkLen5to12 B seed)
        ∧ (13 ≤ B.length → B.length ≤ 24 →
            suHash32WithSeed B seed = mkLen13to24 B (seed * c1)))
    ∧ (∀ (s : State) (B : Bytes), s.fault = false → BufferIs s B →
        s.cfg.hwcap.simd128 = true → s.cfg.hwcap.crc32 = true →
        (∃ h, saHash32 B = some h
          ∧ exec .saH32 s = .next (completedWith 0x5C (h.setWidth 64) 0 s))
        ∧ (∃ h, saHash32WithSeed B (s.x0.setWidth 32) = some h
            ∧ exec .saH32s s = .next (completedWith 0x5D (h.setWidth 64) 0 s))
        ∧ (s.cfg.hwcap.aes = true →
            (∃ h, suHash32 B = some h
              ∧ exec .suH32 s = .next (completedWith 0x58 (h.setWidth 64) 0 s))
            ∧ (∃ h, suHash32WithSeed B (s.x0.setWidth 32) = some h
                ∧ exec .suH32s s = .next (completedWith 0x59 (h.setWidth 64) 0 s))))
    ∧ (∀ s : State, s.fault = false →
        (¬ (s.cfg.hwcap.simd128 = true ∧ s.cfg.hwcap.crc32 = true) →
          exec .saH32 s = .next (faultedWith 0x5C 2 s)
          ∧ exec .saH32s s = .next (faultedWith 0x5D 2 s))
        ∧ (¬ (s.cfg.hwcap.simd128 = true ∧ s.cfg.hwcap.crc32 = true
              ∧ s.cfg.hwcap.aes = true) →
          exec .suH32 s = .next (faultedWith 0x58 2 s)
          ∧ exec .suH32s s = .next (faultedWith 0x59 2 s)))
    ∧ suHash32 [] = some 0xDC56D17A ∧ suHash32 (dataBuffer 24) = some 0x0208A5C5
    ∧ suHash32WithSeed [] 0x1234 = some 0x22EB2926
    ∧ saHash32 [0x61, 0x62, 0x63] = some 0x2F635EC7
    ∧ saHash32WithSeed (dataBuffer 25) 0x1234 = some (Config.saLong1 (dataBuffer 25) 0x1234)

/-- R283, R284, R288, R289: CC's 32-bit hashes, the long path as R283 writes it. -/
def Obligations.Cc32Family : Prop :=
  encode .ccH32 = 0x60 ∧ encode .ccH32s = 0x61
    ∧ (∀ B : Bytes, ccHash32 B =
        if B.length ≤ 4 then some (ccLen0to4 B) else if B.length ≤ 12 then ccLen5to12 B
        else if B.length ≤ 24 then ccLen13to24 B else ccLong32 B)
    ∧ (∀ B : Bytes, 24 < B.length → ccLong32 B =
        let n := B.length
        let mix := fun (w : U32) => rotate32 (w * c1) 17 * c2
        let add := fun (h a : U32) (r : Nat) => rotate32 (h ^^^ a) r * 5 + 0xE6546B64
        let tail := fun (o : Nat) => mix (le32 B (n - o))
        let h0 := add (add (nat32 n) (tail 4) 19) (tail 16) 19
        let g0 := add (add (c1 * nat32 n) (tail 8) 19) (tail 12) 19
        let f0 := rotate32 (c1 * nat32 n + tail 20) 19 * 5 + 0xE6546B64
        let block := fun (s : Acc32) (j : Nat) =>
          let b0 := mix (le32 B (20 * j))
          let b1 := le32 B (20 * j + 4)
          let b2 := mix (le32 B (20 * j + 8))
          let b3 := mix (le32 B (20 * j + 12))
          let b4 := le32 B (20 * j + 16)
          let h := bswap32 (add (add s.h b0 18) (b3 + b1) 19 + b4 * 5)
          let f := rotate32 (s.f + b1) 19 * c1 + b0
          let g := bswap32 ((rotate32 (s.g + b2) 18 * 5 + 0xE6546B64) ^^^ b4) * 5
          -- after both swaps `f` is the old `g`, `g` the old `h` and `h` the old `f`
          Acc32.mk f h g
        let s := (List.range ((n - 1) / 20)).foldl block (Acc32.mk h0 g0 f0)
        let g := rotate32 (rotate32 s.g 11 * c1) 17 * c1
        let f := rotate32 (rotate32 s.f 11 * c1) 17 * c1
        let h := rotate32 (rotate32 (s.h + g) 19 * 5 + 0xE6546B64) 17 * c1
        some (rotate32 (rotate32 (h + f) 19 * 5 + 0xE6546B64) 17 * c1))
    ∧ (∀ (B : Bytes) (seed : U32),
        (B.length ≤ 4 → ccHash32WithSeed B seed = some (mkLen0to4 B seed))
        ∧ (5 ≤ B.length → B.length ≤ 12 → ccHash32WithSeed B seed = mkLen5to12 B seed)
        ∧ (13 ≤ B.length → B.length ≤ 24 →
            ccHash32WithSeed B seed = mkLen13to24 B (seed * c1))
        ∧ (24 < B.length → ∃ h t, mkLen13to24 (B.take 24) (seed ^^^ nat32 B.length) = some h
            ∧ ccHash32 (B.drop 24) = some t
            ∧ ccHash32WithSeed B seed = some (mur (t + seed) h)))
    ∧ (∀ (B : Bytes) (seed : U32),
        B.length ≤ 24 ∨ ccHash32 (B.drop 24) = mkHash32 (B.drop 24) →
        ccHash32WithSeed B seed = mkHash32WithSeed B seed)
    ∧ (∀ B : Bytes, B.length ≤ 12 → ccHash32 B = mkHash32 B)
    ∧ (∀ (B : Bytes) (seed : U32), B.length ≤ 36 →
        ccHash32WithSeed B seed = mkHash32WithSeed B seed)
    ∧ (∀ (s : State) (B : Bytes), s.fault = false → BufferIs s B →
        (∃ h, ccHash32 B = some h
          ∧ exec .ccH32 s = .next (completedWith 0x60 (h.setWidth 64) 0 s))
        ∧ (∃ h, ccHash32WithSeed B (s.x0.setWidth 32) = some h
            ∧ exec .ccH32s s = .next (completedWith 0x61 (h.setWidth 64) 0 s)))
    ∧ ccHash32 [] = some 0xDC56D17A ∧ ccHash32 (dataBuffer 25) = some 0x8C2B3C64
    ∧ ccHash32 (dataBuffer 45) = some 0x7837631F
    ∧ ccHash32WithSeed (dataBuffer 25) 0x1234 = some 0x08610356
    ∧ ccHash32WithSeed (dataBuffer 45) 0x1234 = some 0x3B00942E

/-- R286, R287, R290, R291: CC's 128-bit hashes. R286's long path is the start, `m / 128` pairs of
blocks, the step between, `ceil(rem / 32)` tail chunks of which chunk `j` ends `32 * j` bytes before
the end of `S`, and the two last folds. -/
def Obligations.Cc128Family : Prop :=
  encode .ccH128 = 0x62 ∧ encode .ccH128s = 0x63
    ∧ (∀ B : Bytes, (16 ≤ B.length →
          ccHash128 B = city128WithSeed (B.drop 16) (le64 B 0) (le64 B 8 + k0))
        ∧ (B.length < 16 → ccHash128 B = city128WithSeed B k0 k1))
    ∧ (∀ (S : Bytes) (lo hi : U64), S.length < 128 →
        city128WithSeed S lo hi = cityMurmur S lo hi)
    ∧ (∀ (S : Bytes) (lo hi : U64), 128 ≤ S.length →
        city128WithSeed S lo hi =
          let m := S.length
          let weak := fun (p : Nat) (a b : U64) =>
            weak32 (le64 S p) (le64 S (p + 8)) (le64 S (p + 16)) (le64 S (p + 24)) a b
          let v1 := rotate64 (hi ^^^ k1) 49 * k1 + le64 S 0
          let v2 := rotate64 v1 42 * k1 + le64 S 8
          let w1 := rotate64 (hi + nat64 m * k1) 35 * k1 + lo
          let w2 := rotate64 (lo + le64 S 88) 53 * k1
          let start := NaAcc.mk lo hi (nat64 m * k1) v1 v2 w1 w2
          let block := fun (s : NaAcc) (j : Nat) =>
            let p := 64 * j
            let x := (rotate64 (s.x + s.y + s.v1 + le64 S (p + 8)) 37 * k1) ^^^ s.w2
            let y := rotate64 (s.y + s.v2 + le64 S (p + 48)) 42 * k1 + s.v1 + le64 S (p + 40)
            let z := rotate64 (s.z + s.w1) 33 * k1
            let v := weak p (s.v2 * k1) (x + s.w1)
            let w := weak (p + 32) (z + s.w2) (y + le64 S (p + 16))
            NaAcc.mk z y x v.1 v.2 w.1 w.2
          let s := (List.range (2 * (m / 128))).foldl block start
          let mid := NaAcc.mk (s.x + rotate64 (s.v1 + s.z) 49 * k0) (s.y * k0 + rotate64 s.w2 37)
            (s.z * k0 + rotate64 s.w1 27) (s.v1 * k0) s.v2 (s.w1 * 9) s.w2
          let chunk := fun (s : NaAcc) (j : Nat) =>
            let q := m - 32 * (j + 1)
            let y := rotate64 (s.x + s.y) 42 * k0 + s.v2
            let w1 := s.w1 + le64 S (q + 16)
            let x := s.x * k0 + w1
            let z := s.z + s.w2 + le64 S q
            let v := weak q (s.v1 + z) s.v2
            NaAcc.mk x y z (v.1 * k0) v.2 w1 (s.w2 + s.v1)
          let s := (List.range ((m % 128 + 31) / 32)).foldl chunk mid
          let x := hashLen16 s.x s.v1
          let y := hashLen16 (s.y + s.z) s.w1
          some (hashLen16 (x + s.v2) s.w2 + y, hashLen16 (x + s.w2) (y + s.v2)))
    ∧ (∀ (s : State) (B : Bytes), s.fault = false → BufferIs s B →
        (∃ p, ccHash128 B = some p ∧ exec .ccH128 s = .next (completedWith 0x62 p.1 p.2 s))
        ∧ (∃ p, city128WithSeed B s.x0 s.x1 = some p
            ∧ exec .ccH128s s = .next (completedWith 0x63 p.1 p.2 s)))
    ∧ ccHash128 [] = some (0x3DF09DFC64C09A2B, 0x3CB540C392E51E29)
    ∧ ccHash128 (dataBuffer 144) = some (0xA6367BC599A4CB32, 0x47DEEF7F02860E70)
    ∧ city128WithSeed (dataBuffer 128) 1 2 = some (0x3D5AEA5AD0930FE1, 0x2E84517E75B2AE9B)
    ∧ city128WithSeed [] 1 2 = some (0x0B19E5BAC36C2662, 0x297DB2B766D3AACD)

/-! ## The public API -/

/-- R312, R313: HASH32 and HASH32S give the selected family's hash, scrambled when DEBUG is 1. -/
def Obligations.Hash32Commands : Prop :=
  encode .hash32 = 0x80 ∧ encode .hash32s = 0x81
    ∧ (∀ (s : State) (B : Bytes), s.fault = false → gateHeld s.cfg .hash32 → BufferIs s B →
        (∃ h, (match s.cfg.sel32 with
              | .mk => mkHash32 B | .sa => saHash32 B | .su => suHash32 B | .nt => ntHash32 B)
            = some h
          ∧ exec .hash32 s = .next (completedWith 0x80
              ((if s.cfg.debug then tweak32 h else h).setWidth 64) 0 s))
        ∧ (∃ h, (match s.cfg.sel32 with
              | .mk => mkHash32WithSeed B (s.x0.setWidth 32)
              | .sa => saHash32WithSeed B (s.x0.setWidth 32)
              | .su => suHash32WithSeed B (s.x0.setWidth 32)
              | .nt => ntHash32WithSeed B (s.x0.setWidth 32)) = some h
          ∧ exec .hash32s s = .next (completedWith 0x81
              ((if s.cfg.debug then tweak32 h else h).setWidth 64) 0 s))
        ∧ (s.cfg.sel32 = .mk → s.cfg.debug = false →
            ∃ a, exec .hash32 s = .next (completedWith 0x80 a 0 s)
              ∧ exec .fp32 s = .next (completedWith 0x90 a 0 s)))
    ∧ (∀ s : State, s.fault = false → ¬ gateHeld s.cfg .hash32 →
        exec .hash32 s = .next (faultedWith 0x80 2 s)
        ∧ exec .hash32s s = .next (faultedWith 0x81 2 s))
    ∧ mkHash32 [0x61, 0x62, 0x63] = some 0x2F635EC7 ∧ tweak32 0x2F635EC7 = 0x08081477
    ∧ ntHash32 [0x61, 0x62, 0x63] = some 0x74E7F369
    ∧ mkHash32WithSeed [] 0x1234 = some 0x22EB2926

/-- R314, with the seeded forms of R315 and R316: HASH64, HASH64S and HASH64SS. -/
def Obligations.Hash64Commands : Prop :=
  encode .hash64 = 0x84 ∧ encode .hash64s = 0x85 ∧ encode .hash64ss = 0x86
    ∧ (∀ (s : State) (B : Bytes), s.fault = false → gateHeld s.cfg .hash64 → BufferIs s B →
        ∃ h, (match s.cfg.sel64 with | .xo => xoHash64 B | .te => teHash64 B) = some h
          ∧ (B.length < 512 → xoHash64 B = some h)
          ∧ exec .hash64 s
            = .next (completedWith 0x84 (if s.cfg.debug then tweak64 h else h) 0 s))
    ∧ (∀ (s : State) (B : Bytes), s.fault = false → gateHeld s.cfg .hash64s → BufferIs s B →
        (∃ h, (match s.cfg.sel64s with
              | .na => naHash64WithSeed B s.x0 | .uo => uoHash64WithSeed B s.x0
              | .xo => xoHash64WithSeed B s.x0 | .te => teHash64WithSeed B s.x0) = some h
          ∧ (B.length ≤ 64 → naHash64WithSeed B s.x0 = some h)
          ∧ exec .hash64s s
            = .next (completedWith 0x85 (if s.cfg.debug then tweak64 h else h) 0 s))
        ∧ (∃ h, (match s.cfg.sel64s with
              | .na => naHash64WithSeeds B s.x0 s.x1 | .uo => uoHash64WithSeeds B s.x0 s.x1
              | .xo => xoHash64WithSeeds B s.x0 s.x1 | .te => teHash64WithSeeds B s.x0 s.x1)
            = some h
          ∧ (B.length ≤ 64 → naHash64WithSeeds B s.x0 s.x1 = some h)
          ∧ exec .hash64ss s
            = .next (completedWith 0x86 (if s.cfg.debug then tweak64 h else h) 0 s)))
    ∧ (∀ s : State, s.fault = false →
        (¬ gateHeld s.cfg .hash64 → exec .hash64 s = .next (faultedWith 0x84 2 s))
        ∧ (¬ gateHeld s.cfg .hash64s → exec .hash64s s = .next (faultedWith 0x85 2 s)
            ∧ exec .hash64ss s = .next (faultedWith 0x86 2 s)))
    ∧ xoHash64 [] = some k2 ∧ teHash64 [] = some k2 ∧ tweak64 k2 = 0x826E8074D1FA8DEF
    ∧ xoHash64 [0x61, 0x62, 0x63] = some 0x24A5B3A074E7F369
    ∧ teHash64 [0x61, 0x62, 0x63] = some 0x24A5B3A074E7F369
    ∧ naHash64WithSeed [] 0x1234 = some 0x86186E5F6E017134
    ∧ tweak64 0x86186E5F6E017134 = 0xA3FD7669B8C49E75
    ∧ naHash64WithSeeds [] 1 2 = some 0xF846BC39066A4ACE
    ∧ tweak64 0xF846BC39066A4ACE = 0x75A939555EF4EBAA

/-- R317, R318: HASH128 and HASH128S. -/
def Obligations.Hash128Commands : Prop :=
  encode .hash128 = 0x88 ∧ encode .hash128s = 0x89
    ∧ (∀ (s : State) (B : Bytes), s.fault = false → BufferIs s B →
        (∃ p, ccHash128 B = some p ∧ exec .hash128 s = .next (completedWith 0x88
            (if s.cfg.debug then tweak128 p else p).1
            (if s.cfg.debug then tweak128 p else p).2 s)
          ∧ exec .fp128 s = .next (completedWith 0x92 p.1 p.2 s))
        ∧ (∃ p, city128WithSeed B s.x0 s.x1 = some p
            ∧ exec .hash128s s = .next (completedWith 0x89
              (if s.cfg.debug then tweak128 p else p).1
              (if s.cfg.debug then tweak128 p else p).2 s)))
    ∧ ccHash128 [] = some (0x3DF09DFC64C09A2B, 0x3CB540C392E51E29)
    ∧ tweak128 (0x3DF09DFC64C09A2B, 0x3CB540C392E51E29)
      = (0x42C96E4F09C954FD, 0xD46E7B58DE4D816B)
    ∧ city128WithSeed [] 1 2 = some (0x0B19E5BAC36C2662, 0x297DB2B766D3AACD)

/-- R319, R320, R321: the Fingerprints are pinned to MK, NA and CC: no scramble, selector or
gate. -/
def Obligations.Fingerprints : Prop :=
  encode .fp32 = 0x90 ∧ encode .fp64 = 0x91 ∧ encode .fp128 = 0x92
    ∧ (∀ (s : State) (B : Bytes), s.fault = false → BufferIs s B →
        (∃ h, mkHash32 B = some h
          ∧ exec .fp32 s = .next (completedWith 0x90 (h.setWidth 64) 0 s))
        ∧ (∃ h, naHash64 B = some h ∧ exec .fp64 s = .next (completedWith 0x91 h 0 s))
        ∧ (∃ p, ccHash128 B = some p
            ∧ exec .fp128 s = .next (completedWith 0x92 p.1 p.2 s)))
    ∧ mkHash32 [] = some 0xDC56D17A ∧ mkHash32 [0x61, 0x62, 0x63] = some 0x2F635EC7
    ∧ naHash64 [] = some k2 ∧ naHash64 [0x61] = some 0xB3454265B6DF75E3
    ∧ naHash64 [0x61, 0x62, 0x63] = some 0x24A5B3A074E7F369
    ∧ ccHash128 [] = some (0x3DF09DFC64C09A2B, 0x3CB540C392E51E29)

/-- R322: a Fingerprint's result depends on the buffer's bytes only: two instances, with any
parameters and any register contents, give the same result on the same bytes. -/
def Obligations.FingerprintStability : Prop :=
  ∀ (s s' : State) (B : Bytes) (i : Instr), i ∈ [.fp32, .fp64, .fp128] →
    s.fault = false → s'.fault = false → BufferIs s B → BufferIs s' B →
    ∃ a b, exec i s = .next (completedWith i.opc a b s)
      ∧ exec i s' = .next (completedWith i.opc a b s')

/-- R311: when DEBUG is 1 the result of every HASH command is the scramble of its width of the
result when DEBUG is 0, and no Fingerprint is scrambled; DEBUG is CONFIG's bit 0, and no step changes
it. -/
def Obligations.DebugTweakStage : Prop :=
  (∀ (s : State) (i : Instr) (a b : U64), s.fault = false →
      let plain := { s with cfg := { s.cfg with debug := false } }
      let debug := { s with cfg := { s.cfg with debug := true } }
      exec i plain = .next (completedWith i.opc a b plain) →
      (i ∈ [.hash32, .hash32s] → exec i debug
        = .next (completedWith i.opc ((tweak32 (a.setWidth 32)).setWidth 64) 0 debug))
      ∧ (i ∈ [.hash64, .hash64s, .hash64ss] → exec i debug
        = .next (completedWith i.opc (tweak64 a) 0 debug))
      ∧ (i ∈ [.hash128, .hash128s] → exec i debug
        = .next (completedWith i.opc (tweak128 (a, b)).1 (tweak128 (a, b)).2 debug))
      ∧ (i ∈ [.fp32, .fp64, .fp128] → exec i debug = .next (completedWith i.opc a b debug)))
    ∧ (∀ s t : State, step s = .next t →
        t.cfg.debug = s.cfg.debug ∧ (readReg .config s).getLsbD 0 = s.cfg.debug)

/-- R323: the agreements across families that the rules give. -/
def Obligations.CrossFamilyAgreement : Prop :=
  ∀ (B : Bytes) (s0 s1 : U64) (seed : U32),
    (B.length < 512 →
      teHash64 B = xoHash64 B ∧ teHash64WithSeed B s0 = xoHash64WithSeed B s0
      ∧ teHash64WithSeeds B s0 s1 = xoHash64WithSeeds B s0 s1
      ∧ ntHash32 B = (xoHash64 B).map (fun h => h.setWidth 32)
      ∧ (∀ x y, selHash64 x B = selHash64 y B))
    ∧ (B.length ≤ 64 →
      uoHash64 B = naHash64 B ∧ uoHash64WithSeed B s0 = naHash64WithSeed B s0
      ∧ uoHash64WithSeeds B s0 s1 = naHash64WithSeeds B s0 s1
      ∧ xoHash64WithSeed B s0 = naHash64WithSeed B s0
      ∧ xoHash64WithSeeds B s0 s1 = naHash64WithSeeds B s0 s1
      ∧ (∀ x y, selHash64WithSeed x B s0 = selHash64WithSeed y B s0
          ∧ selHash64WithSeeds x B s0 s1 = selHash64WithSeeds y B s0 s1))
    ∧ (B.length ≤ 32 → xoHash64 B = naHash64 B)
    ∧ (B.length ≤ 24 →
      suHash32 B = mkHash32 B ∧ saHash32 B = mkHash32 B
      ∧ suHash32WithSeed B seed = mkHash32WithSeed B seed
      ∧ saHash32WithSeed B seed = mkHash32WithSeed B seed)
end

