-- ==== Sys2Proof/Laws/Fetch.lean ====
section
/-! SUPPORT. The word fetches inside and outside the buffer (20_memory.md rules R62, R67;
40_primitives.md rule R101). -/

namespace Sys2Proof.Laws

open Sys2Proof.Machine

theorem leNat_zero (B : Bytes) (i : Nat) : leNat B i 0 = 0 := rfl

theorem leNat_succ (B : Bytes) (i k : Nat) :
    leNat B i (k + 1) = (B.getD i 0).toNat + 256 * leNat B (i + 1) k := rfl

/-- A little-endian number of `k` bytes is below `256 ^ k`. -/
theorem leNat_lt (B : Bytes) (i k : Nat) : leNat B i k < 256 ^ k := by
  induction k generalizing i with
  | zero => simp [leNat_zero]
  | succ k ih =>
    rw [leNat_succ, pow_succ]
    have h1 := ih (i + 1)
    have h2 := (B.getD i 0).isLt
    omega

/-- The bytes from offset `i` on, split into the byte at `i` and the rest. -/
theorem drop_eq_getD_cons {B : Bytes} {i : Nat} (h : i < B.length) :
    B.drop i = B.getD i 0 :: B.drop (i + 1) := by
  rw [List.drop_eq_getElem_cons h, List.getD_eq_getElem _ _ h]

/-- Inside the buffer `Fetch32` is the little-endian number of its four bytes. -/
theorem fetch32_inside {B : Bytes} {i : Nat} (h : i + 4 ≤ B.length) :
    fetch32 B i = some (le32 B i) := by
  have h0 := (B.getD i 0).isLt
  have h1 := (B.getD (i + 1) 0).isLt
  have h2 := (B.getD (i + 2) 0).isLt
  have h3 := (B.getD (i + 3) 0).isLt
  rw [fetch32, drop_eq_getD_cons (by omega), drop_eq_getD_cons (by omega),
    drop_eq_getD_cons (by omega), drop_eq_getD_cons (by omega)]
  simp only [le32, leNat_succ, leNat_zero, Option.some.injEq]
  apply BitVec.eq_of_toNat_eq
  simp only [BitVec.toNat_or, BitVec.toNat_shiftLeft, BitVec.toNat_setWidth, BitVec.toNat_ofNat,
    Nat.add_assoc, Nat.reduceAdd]
  generalize (B.getD i 0).toNat = a at *
  generalize (B.getD (i + 1) 0).toNat = b at *
  generalize (B.getD (i + 2) 0).toNat = c at *
  generalize (B.getD (i + 3) 0).toNat = d at *
  simp only [Nat.shiftLeft_eq]
  rw [Nat.mod_eq_of_lt (show a < 2 ^ 32 by omega), Nat.mod_eq_of_lt (show b < 2 ^ 32 by omega),
    Nat.mod_eq_of_lt (show c < 2 ^ 32 by omega), Nat.mod_eq_of_lt (show d < 2 ^ 32 by omega),
    Nat.mod_eq_of_lt (show b * 2 ^ 8 < 2 ^ 32 by omega),
    Nat.mod_eq_of_lt (show c * 2 ^ 16 < 2 ^ 32 by omega),
    Nat.mod_eq_of_lt (show d * 2 ^ 24 < 2 ^ 32 by omega)]
  have e1 : a ||| b * 2 ^ 8 = a + b * 2 ^ 8 := by
    have := Nat.shiftLeft_add_eq_or_of_lt (show a < 2 ^ 8 by omega) b
    rw [Nat.or_comm, ← Nat.shiftLeft_eq, ← this]; omega
  have e2 : (a + b * 2 ^ 8) ||| c * 2 ^ 16 = a + b * 2 ^ 8 + c * 2 ^ 16 := by
    have := Nat.shiftLeft_add_eq_or_of_lt (show a + b * 2 ^ 8 < 2 ^ 16 by omega) c
    rw [Nat.or_comm, ← Nat.shiftLeft_eq, ← this]; omega
  have e3 : (a + b * 2 ^ 8 + c * 2 ^ 16) ||| d * 2 ^ 24
      = a + b * 2 ^ 8 + c * 2 ^ 16 + d * 2 ^ 24 := by
    have := Nat.shiftLeft_add_eq_or_of_lt (show a + b * 2 ^ 8 + c * 2 ^ 16 < 2 ^ 24 by omega) d
    rw [Nat.or_comm, ← Nat.shiftLeft_eq, ← this]; omega
  rw [e1, e2, e3]
  omega

/-- Inside the buffer `Fetch64` is the little-endian number of its eight bytes. -/
theorem fetch64_inside {B : Bytes} {i : Nat} (h : i + 8 ≤ B.length) :
    fetch64 B i = some (le64 B i) := by
  have h0 := (B.getD i 0).isLt
  have h1 := (B.getD (i + 1) 0).isLt
  have h2 := (B.getD (i + 2) 0).isLt
  have h3 := (B.getD (i + 3) 0).isLt
  have h4 := (B.getD (i + 4) 0).isLt
  have h5 := (B.getD (i + 5) 0).isLt
  have h6 := (B.getD (i + 6) 0).isLt
  have h7 := (B.getD (i + 7) 0).isLt
  rw [fetch64, drop_eq_getD_cons (by omega), drop_eq_getD_cons (by omega),
    drop_eq_getD_cons (by omega), drop_eq_getD_cons (by omega), drop_eq_getD_cons (by omega),
    drop_eq_getD_cons (by omega), drop_eq_getD_cons (by omega), drop_eq_getD_cons (by omega)]
  simp only [le64, leNat_succ, leNat_zero, Option.some.injEq]
  apply BitVec.eq_of_toNat_eq
  simp only [BitVec.toNat_add, BitVec.toNat_shiftLeft, BitVec.toNat_setWidth, BitVec.toNat_ofNat,
    Nat.add_assoc, Nat.reduceAdd, Nat.shiftLeft_eq]
  omega

/-- `Fetch32` has a value exactly inside the buffer. -/
theorem fetch32_isSome_iff (B : Bytes) (i : Nat) :
    (fetch32 B i).isSome = true ↔ i + 4 ≤ B.length := by
  constructor
  · intro h
    rw [fetch32] at h
    split at h
    · rename_i b0 b1 b2 b3 bs hd
      have := congrArg List.length hd
      simp only [List.length_drop, List.length_cons] at this
      omega
    · simp at h
  · intro h
    simp [fetch32_inside h]

/-- `Fetch64` has a value exactly inside the buffer. -/
theorem fetch64_isSome_iff (B : Bytes) (i : Nat) :
    (fetch64 B i).isSome = true ↔ i + 8 ≤ B.length := by
  constructor
  · intro h
    rw [fetch64] at h
    split at h
    · rename_i b0 b1 b2 b3 b4 b5 b6 b7 bs hd
      have := congrArg List.length hd
      simp only [List.length_drop, List.length_cons] at this
      omega
    · simp at h
  · intro h
    simp [fetch64_inside h]

end Sys2Proof.Laws
end

