-- ==== Sys2Proof/Laws/Datapath.lean ====
section
/-! SUPPORT. Every datapath function has a value on every length of its bucket: no fetch leaves the
buffer (20_memory.md rule R67; 70_reset_and_hazards.md rule R380). One lemma per function, which the
lemmas above it cite. -/

namespace Sys2Proof.Laws

open Sys2Proof.Machine

variable {B : Bytes}

/-! Kernels -/

theorem weakMem_some {i : Nat} (h : i + 32 ≤ B.length) (a b : U64) :
    weakMem B i a b
      = some (weak32 (le64 B i) (le64 B (i + 8)) (le64 B (i + 16)) (le64 B (i + 24)) a b) := by
  simp (disch := omega) [weakMem, fetch64_inside]

theorem naLen0to16_some (h : B.length ≤ 16) : ∃ r, naLen0to16 B = some r := by
  unfold naLen0to16
  dsimp only
  split
  · simp (disch := omega) [fetch64_inside]
  · split
    · simp (disch := omega) [fetch32_inside]
    · split
      · rw [List.getElem?_eq_getElem (by omega), List.getElem?_eq_getElem (by
          rw [Nat.shiftRight_eq_div_pow]; omega), List.getElem?_eq_getElem (by omega)]
        exact ⟨_, rfl⟩
      · exact ⟨_, rfl⟩

theorem naLen17to32_some (h : 17 ≤ B.length) : ∃ r, naLen17to32 B = some r := by
  simp (disch := omega) [naLen17to32, fetch64_inside]

theorem naLen33to64_some (h : 33 ≤ B.length) : ∃ r, naLen33to64 B = some r := by
  simp (disch := omega) [naLen33to64, fetch64_inside]

/-! NA -/

theorem naBlock_some {p : Nat} (h : p + 64 ≤ B.length) (s : NaAcc) : ∃ t, naBlock B p s = some t := by
  simp (disch := omega) [naBlock, fetch64_inside, weakMem_some]

theorem naBlocks_some {k p : Nat} (h : p + 64 * k ≤ B.length) (s : NaAcc) :
    ∃ t, naBlocks B k p s = some t := by
  induction k generalizing p s with
  | zero => exact ⟨s, rfl⟩
  | succ k ih =>
    obtain ⟨t, ht⟩ := naBlock_some (B := B) (p := p) (by omega) s
    obtain ⟨u, hu⟩ := ih (p := p + 64) (by omega) t
    exact ⟨u, by simp [naBlocks, ht, hu]⟩

theorem naTail_some (h : 64 ≤ B.length) (s : NaAcc) : ∃ r, naTail B s = some r := by
  simp (disch := omega) [naTail, fetch64_inside, weakMem_some]

theorem naLong64_some (h : 64 < B.length) : ∃ r, naLong64 B = some r := by
  obtain ⟨s, hs⟩ := naBlocks_some (B := B) (k := (B.length - 1) / 64) (p := 0) (by omega)
    (naStart (le64 B 0))
  obtain ⟨r, hr⟩ := naTail_some (B := B) (by omega) s
  exact ⟨r, by simp [naLong64, fetch64_inside (B := B) (i := 0) (by omega), hs, hr]⟩

theorem naHash64_some (B : Bytes) : ∃ r, naHash64 B = some r := by
  unfold naHash64
  split
  · exact naLen0to16_some ‹_›
  · split
    · exact naLen17to32_some (by omega)
    · split
      · exact naLen33to64_some (by omega)
      · exact naLong64_some (by omega)

theorem naHash64WithSeeds_some (B : Bytes) (s0 s1 : U64) :
    ∃ r, naHash64WithSeeds B s0 s1 = some r := by
  obtain ⟨r, hr⟩ := naHash64_some B
  exact ⟨_, by simp [naHash64WithSeeds, hr]; rfl⟩

theorem naHash64WithSeed_some (B : Bytes) (seed : U64) : ∃ r, naHash64WithSeed B seed = some r :=
  naHash64WithSeeds_some B k2 seed

/-! UO -/

theorem uoBlock_some {p : Nat} (h : p + 64 ≤ B.length) (mul : U64) (s : UoAcc) :
    ∃ t, uoBlock B mul p s = some t := by
  simp (disch := omega) [uoBlock, fetch64_inside]

theorem uoBlocks_some {k p : Nat} (h : p + 64 * k ≤ B.length) (mul : U64) (s : UoAcc) :
    ∃ t, uoBlocks B mul k p s = some t := by
  induction k generalizing p s with
  | zero => exact ⟨s, rfl⟩
  | succ k ih =>
    obtain ⟨t, ht⟩ := uoBlock_some (B := B) (p := p) (by omega) mul s
    obtain ⟨u, hu⟩ := ih (p := p + 64) (by omega) t
    exact ⟨u, by simp [uoBlocks, ht, hu]⟩

theorem uoTail_some (h : 64 ≤ B.length) (mul : U64) (s : UoAcc) : ∃ r, uoTail B mul s = some r := by
  simp (disch := omega) [uoTail, fetch64_inside, weakMem_some]

theorem uoLong64_some (h : 64 < B.length) (s0 s1 : U64) : ∃ r, uoLong64 B s0 s1 = some r := by
  obtain ⟨s, hs⟩ := uoBlocks_some (B := B) (k := (B.length - 1) / 64) (p := 0) (by omega)
    (uoStart s0 s1).2 (uoStart s0 s1).1
  obtain ⟨r, hr⟩ := uoTail_some (B := B) (by omega) (uoStart s0 s1).2 s
  exact ⟨r, by simp [uoLong64, hs, hr]⟩

theorem uoHash64WithSeeds_some (B : Bytes) (s0 s1 : U64) :
    ∃ r, uoHash64WithSeeds B s0 s1 = some r := by
  unfold uoHash64WithSeeds
  split
  · exact naHash64WithSeeds_some B s0 s1
  · exact uoLong64_some (by omega) s0 s1

theorem uoHash64WithSeed_some (B : Bytes) (seed : U64) : ∃ r, uoHash64WithSeed B seed = some r := by
  unfold uoHash64WithSeed
  split
  · exact naHash64WithSeed_some B seed
  · exact uoHash64WithSeeds_some B 0 seed

theorem uoHash64_some (B : Bytes) : ∃ r, uoHash64 B = some r := by
  unfold uoHash64
  split
  · exact naHash64_some B
  · exact uoHash64WithSeeds_some B 81 0

/-! XO -/

theorem xoH32_some {o m : Nat} (h : 16 ≤ m) (hm : o + m ≤ B.length) (mul s0 s1 : U64) :
    ∃ r, xoH32 B o m mul s0 s1 = some r := by
  simp (disch := omega) [xoH32, fetch64_inside]

theorem xoLen33to64_some (h : 33 ≤ B.length) : ∃ r, xoLen33to64 B = some r := by
  obtain ⟨h0, e0⟩ := xoH32_some (B := B) (o := 0) (m := 32) (by omega) (by omega) (k2 - 30) 0 0
  obtain ⟨h1, e1⟩ := xoH32_some (B := B) (o := B.length - 32) (m := 32) (by omega) (by omega)
    (k2 - 30 + 2 * nat64 B.length) 0 0
  exact ⟨_, by simp only [xoLen33to64, e0, e1]; rfl⟩

theorem xoLen65to96_some (h : 65 ≤ B.length) : ∃ r, xoLen65to96 B = some r := by
  obtain ⟨h0, e0⟩ := xoH32_some (B := B) (o := 0) (m := 32) (by omega) (by omega) (k2 - 114) 0 0
  obtain ⟨h1, e1⟩ := xoH32_some (B := B) (o := 32) (m := 32) (by omega) (by omega)
    (k2 - 114 + 2 * nat64 B.length) 0 0
  obtain ⟨h2, e2⟩ := xoH32_some (B := B) (o := B.length - 32) (m := 32) (by omega) (by omega)
    (k2 - 114 + 2 * nat64 B.length) h0 h1
  refine ⟨(h2 * 9 + (h0 >>> 17) + (h1 >>> 21)) * (k2 - 114 + 2 * nat64 B.length), ?_⟩
  unfold xoLen65to96
  simp only [e0, e1, bind, Option.bind]
  rw [e2]
  rfl

theorem xoHash64_some (B : Bytes) : ∃ r, xoHash64 B = some r := by
  unfold xoHash64
  split
  · exact naLen0to16_some ‹_›
  · split
    · exact naLen17to32_some (by omega)
    · split
      · exact xoLen33to64_some (by omega)
      · split
        · exact xoLen65to96_some (by omega)
        · split
          · exact naHash64_some B
          · exact uoHash64_some B

theorem xoHash64WithSeed_some (B : Bytes) (seed : U64) : ∃ r, xoHash64WithSeed B seed = some r :=
  uoHash64WithSeed_some B seed

theorem xoHash64WithSeeds_some (B : Bytes) (s0 s1 : U64) :
    ∃ r, xoHash64WithSeeds B s0 s1 = some r :=
  uoHash64WithSeeds_some B s0 s1

/-! TE and NT -/

theorem teHash64_some (B : Bytes) : ∃ r, teHash64 B = some r := by
  unfold teHash64
  split
  · exact ⟨_, rfl⟩
  · exact xoHash64_some B

theorem teHash64WithSeed_some (B : Bytes) (seed : U64) : ∃ r, teHash64WithSeed B seed = some r := by
  unfold teHash64WithSeed
  split
  · exact ⟨_, rfl⟩
  · exact xoHash64WithSeed_some B seed

theorem teHash64WithSeeds_some (B : Bytes) (s0 s1 : U64) :
    ∃ r, teHash64WithSeeds B s0 s1 = some r := by
  unfold teHash64WithSeeds
  split
  · exact ⟨_, rfl⟩
  · exact xoHash64WithSeeds_some B s0 s1

theorem ntHash32_some (B : Bytes) : ∃ r, ntHash32 B = some r := by
  obtain ⟨r, hr⟩ := teHash64_some B
  exact ⟨trunc32 r, by simp [ntHash32, hr]⟩

theorem ntHash32WithSeed_some (B : Bytes) (seed : U32) : ∃ r, ntHash32WithSeed B seed = some r := by
  obtain ⟨r, hr⟩ := teHash64WithSeed_some B (zext64 seed)
  exact ⟨trunc32 r, by simp [ntHash32WithSeed, hr]⟩

/-! MK -/

/-- The middle fetch of the 5 to 12 byte kernels is at offset 0 or 4 (R241). -/
theorem middle_offset (n : Nat) (h : 5 ≤ n) (h' : n ≤ 12) : ((n >>> 1) &&& 4) + 4 ≤ n := by
  rcases (by omega : n = 5 ∨ n = 6 ∨ n = 7 ∨ n = 8 ∨ n = 9 ∨ n = 10 ∨ n = 11 ∨ n = 12)
    with rfl | rfl | rfl | rfl | rfl | rfl | rfl | rfl <;> decide

theorem mkLen5to12_some (h : 5 ≤ B.length) (h' : B.length ≤ 12) (seed : U32) :
    ∃ r, mkLen5to12 B seed = some r := by
  have := middle_offset B.length h h'
  simp (disch := omega) [mkLen5to12, fetch32_inside]

theorem mkLen13to24_some (h : 13 ≤ B.length) (seed : U32) : ∃ r, mkLen13to24 B seed = some r := by
  have : B.length >>> 1 = B.length / 2 := Nat.shiftRight_eq_div_pow _ 1
  simp (disch := omega) [mkLen13to24, fetch32_inside]

theorem longStart32_some (h : 24 < B.length) : ∃ s, longStart32 B = some s := by
  simp (disch := omega) [longStart32, fetch32_inside]

theorem mkBlock_some {p : Nat} (h : p + 20 ≤ B.length) (s : Acc32) : ∃ t, mkBlock B p s = some t := by
  simp (disch := omega) [mkBlock, fetch32_inside]

theorem mkBlocks_some {k p : Nat} (h : p + 20 * k ≤ B.length) (s : Acc32) :
    ∃ t, mkBlocks B k p s = some t := by
  induction k generalizing p s with
  | zero => exact ⟨s, rfl⟩
  | succ k ih =>
    obtain ⟨t, ht⟩ := mkBlock_some (B := B) (p := p) (by omega) s
    obtain ⟨u, hu⟩ := ih (p := p + 20) (by omega) t
    exact ⟨u, by simp [mkBlocks, ht, hu]⟩

theorem mkLong32_some (h : 24 < B.length) : ∃ r, mkLong32 B = some r := by
  obtain ⟨s, hs⟩ := longStart32_some h
  obtain ⟨t, ht⟩ := mkBlocks_some (B := B) (k := (B.length - 1) / 20) (p := 0) (by omega)
    { s with f := rotate32 s.f 19 + 113 }
  refine ⟨longEnd32 t, ?_⟩
  unfold mkLong32
  simp only [hs, bind, Option.bind]
  rw [ht]
  rfl

theorem mkHash32_some (B : Bytes) : ∃ r, mkHash32 B = some r := by
  unfold mkHash32
  split
  · exact ⟨_, rfl⟩
  · split
    · exact mkLen5to12_some (by omega) ‹_› 0
    · split
      · exact mkLen13to24_some (by omega) 0
      · exact mkLong32_some (by omega)

theorem mkSeededSmall_some (h : B.length ≤ 24) (seed : U32) : ∃ r, mkSeededSmall B seed = some r := by
  unfold mkSeededSmall
  split
  · exact mkLen13to24_some ‹_› _
  · split
    · exact mkLen5to12_some ‹_› (by omega) seed
    · exact ⟨_, rfl⟩

theorem mkHash32WithSeed_some (B : Bytes) (seed : U32) : ∃ r, mkHash32WithSeed B seed = some r := by
  unfold mkHash32WithSeed
  split
  · exact mkSeededSmall_some ‹_› seed
  · obtain ⟨h, eh⟩ := mkLen13to24_some (B := B.take 24) (by simp; omega) (seed ^^^ nat32 B.length)
    obtain ⟨t, et⟩ := mkHash32_some (B.drop 24)
    exact ⟨_, by rw [eh, et]; rfl⟩

/-! SU and SA -/

theorem suHash32_some (B : Bytes) : ∃ r, suHash32 B = some r := by
  unfold suHash32
  split
  · exact ⟨_, rfl⟩
  · split
    · exact mkLen5to12_some (by omega) ‹_› 0
    · split
      · exact mkLen13to24_some (by omega) 0
      · exact ⟨_, rfl⟩

theorem suHash32WithSeed_some (B : Bytes) (seed : U32) : ∃ r, suHash32WithSeed B seed = some r := by
  unfold suHash32WithSeed
  split
  · exact mkSeededSmall_some ‹_› seed
  · exact ⟨_, rfl⟩

theorem saHash32_some (B : Bytes) : ∃ r, saHash32 B = some r := by
  unfold saHash32
  split
  · exact ⟨_, rfl⟩
  · split
    · exact mkLen5to12_some (by omega) ‹_› 0
    · split
      · exact mkLen13to24_some (by omega) 0
      · exact ⟨_, rfl⟩

theorem saHash32WithSeed_some (B : Bytes) (seed : U32) : ∃ r, saHash32WithSeed B seed = some r := by
  unfold saHash32WithSeed
  split
  · exact mkSeededSmall_some ‹_› seed
  · exact ⟨_, rfl⟩

/-! CC, 32-bit -/

theorem ccLen5to12_some (h : 5 ≤ B.length) (h' : B.length ≤ 12) : ∃ r, ccLen5to12 B = some r := by
  have := middle_offset B.length h h'
  simp (disch := omega) [ccLen5to12, fetch32_inside]

theorem ccLen13to24_some (h : 13 ≤ B.length) : ∃ r, ccLen13to24 B = some r := by
  have : B.length >>> 1 = B.length / 2 := Nat.shiftRight_eq_div_pow _ 1
  simp (disch := omega) [ccLen13to24, fetch32_inside]

theorem ccBlock_some {p : Nat} (h : p + 20 ≤ B.length) (s : Acc32) : ∃ t, ccBlock B p s = some t := by
  simp (disch := omega) [ccBlock, fetch32_inside]

theorem ccBlocks_some {k p : Nat} (h : p + 20 * k ≤ B.length) (s : Acc32) :
    ∃ t, ccBlocks B k p s = some t := by
  induction k generalizing p s with
  | zero => exact ⟨s, rfl⟩
  | succ k ih =>
    obtain ⟨t, ht⟩ := ccBlock_some (B := B) (p := p) (by omega) s
    obtain ⟨u, hu⟩ := ih (p := p + 20) (by omega) t
    exact ⟨u, by simp [ccBlocks, ht, hu]⟩

theorem ccLong32_some (h : 24 < B.length) : ∃ r, ccLong32 B = some r := by
  obtain ⟨s, hs⟩ := longStart32_some h
  obtain ⟨t, ht⟩ := ccBlocks_some (B := B) (k := (B.length - 1) / 20) (p := 0) (by omega)
    { s with f := rotate32 s.f 19 * 5 + murAdd }
  refine ⟨longEnd32 t, ?_⟩
  unfold ccLong32
  simp only [hs, bind, Option.bind]
  rw [ht]
  rfl

theorem ccHash32_some (B : Bytes) : ∃ r, ccHash32 B = some r := by
  unfold ccHash32
  split
  · exact ⟨_, rfl⟩
  · split
    · exact ccLen5to12_some (by omega) ‹_›
    · split
      · exact ccLen13to24_some (by omega)
      · exact ccLong32_some (by omega)

theorem ccHash32WithSeed_some (B : Bytes) (seed : U32) : ∃ r, ccHash32WithSeed B seed = some r := by
  unfold ccHash32WithSeed
  split
  · exact mkSeededSmall_some ‹_› seed
  · obtain ⟨h, eh⟩ := mkLen13to24_some (B := B.take 24) (by simp; omega) (seed ^^^ nat32 B.length)
    obtain ⟨t, et⟩ := ccHash32_some (B.drop 24)
    exact ⟨_, by rw [eh, et]; rfl⟩

/-! CC, 128-bit -/

theorem citySteps_some {k p : Nat} (h : p + 16 * k ≤ B.length) (s : CityAcc) :
    ∃ t, citySteps B k p s = some t := by
  induction k generalizing p s with
  | zero => exact ⟨s, rfl⟩
  | succ k ih =>
    obtain ⟨t, ht⟩ : ∃ t, cityStep B p s = some t := by
      simp (disch := omega) [cityStep, fetch64_inside]
    obtain ⟨u, hu⟩ := ih (p := p + 16) (by omega) t
    exact ⟨u, by simp [citySteps, ht, hu]⟩

theorem cityShort_some (h : B.length ≤ 16) (lo hi : U64) : ∃ s, cityShort B lo hi = some s := by
  obtain ⟨r, hr⟩ := naLen0to16_some h
  unfold cityShort
  rw [hr]
  by_cases h8 : 8 ≤ B.length
  · simp [h8, fetch64_inside (B := B) (i := 0) (by omega)]
  · simp [h8]

theorem cityLong_some (h : 16 < B.length) (lo hi : U64) : ∃ s, cityLong B lo hi = some s := by
  unfold cityLong
  simp only [fetch64_inside (B := B) (i := B.length - 8) (by omega),
    fetch64_inside (B := B) (i := B.length - 16) (by omega), bind, Option.bind]
  exact citySteps_some (by omega) _

theorem cityMurmur_some (B : Bytes) (lo hi : U64) : ∃ p, cityMurmur B lo hi = some p := by
  unfold cityMurmur
  split
  · obtain ⟨s, hs⟩ := cityShort_some ‹_› lo hi
    simp [hs]
  · obtain ⟨s, hs⟩ := cityLong_some (B := B) (by omega) lo hi
    simp [hs]

theorem city128Start_some (h : 96 ≤ B.length) (lo hi : U64) :
    ∃ s, city128Start B lo hi = some s := by
  simp (disch := omega) [city128Start, fetch64_inside]

theorem city128Chunk_some {q : Nat} (h : q + 32 ≤ B.length) (s : NaAcc) :
    ∃ t, city128Chunk B q s = some t := by
  simp (disch := omega) [city128Chunk, fetch64_inside, weakMem_some]

theorem city128Chunks_some {k e : Nat} (h : 32 * k ≤ e) (he : e ≤ B.length) (s : NaAcc) :
    ∃ t, city128Chunks B k e s = some t := by
  induction k generalizing e s with
  | zero => exact ⟨s, rfl⟩
  | succ k ih =>
    obtain ⟨t, ht⟩ := city128Chunk_some (B := B) (q := e - 32) (by omega) s
    obtain ⟨u, hu⟩ := ih (e := e - 32) (by omega) (by omega) t
    exact ⟨u, by simp [city128Chunks, ht, hu]⟩

theorem city128Long_some (h : 128 ≤ B.length) (lo hi : U64) : ∃ p, city128Long B lo hi = some p := by
  obtain ⟨s, hs⟩ := city128Start_some (B := B) (by omega) lo hi
  obtain ⟨t, ht⟩ := naBlocks_some (B := B) (k := 2 * (B.length / 128)) (p := 0) (by omega) s
  obtain ⟨u, hu⟩ := city128Chunks_some (B := B) (k := (B.length % 128 + 31) / 32) (e := B.length)
    (by omega) (Nat.le_refl _) (city128Mid t)
  exact ⟨city128End u, by simp [city128Long, hs, ht, hu]⟩

theorem city128WithSeed_some (B : Bytes) (lo hi : U64) : ∃ p, city128WithSeed B lo hi = some p := by
  unfold city128WithSeed
  split
  · exact cityMurmur_some B lo hi
  · exact city128Long_some (by omega) lo hi

theorem ccHash128_some (B : Bytes) : ∃ p, ccHash128 B = some p := by
  unfold ccHash128
  split
  · simp only [fetch64_inside (B := B) (i := 0) (by omega),
      fetch64_inside (B := B) (i := 8) (by omega), bind, Option.bind]
    exact city128WithSeed_some _ _ _
  · exact city128WithSeed_some B k0 k1

/-! The selected families -/

theorem selHash32_some (sel : Sel32) (B : Bytes) : ∃ r, selHash32 sel B = some r := by
  cases sel
  · exact mkHash32_some B
  · exact saHash32_some B
  · exact suHash32_some B
  · exact ntHash32_some B

theorem selHash32WithSeed_some (sel : Sel32) (B : Bytes) (seed : U32) :
    ∃ r, selHash32WithSeed sel B seed = some r := by
  cases sel
  · exact mkHash32WithSeed_some B seed
  · exact saHash32WithSeed_some B seed
  · exact suHash32WithSeed_some B seed
  · exact ntHash32WithSeed_some B seed

theorem selHash64_some (sel : Sel64) (B : Bytes) : ∃ r, selHash64 sel B = some r := by
  cases sel
  · exact xoHash64_some B
  · exact teHash64_some B

theorem selHash64WithSeed_some (sel : Sel64S) (B : Bytes) (seed : U64) :
    ∃ r, selHash64WithSeed sel B seed = some r := by
  cases sel
  · exact naHash64WithSeed_some B seed
  · exact uoHash64WithSeed_some B seed
  · exact xoHash64WithSeed_some B seed
  · exact teHash64WithSeed_some B seed

theorem selHash64WithSeeds_some (sel : Sel64S) (B : Bytes) (s0 s1 : U64) :
    ∃ r, selHash64WithSeeds sel B s0 s1 = some r := by
  cases sel
  · exact naHash64WithSeeds_some B s0 s1
  · exact uoHash64WithSeeds_some B s0 s1
  · exact xoHash64WithSeeds_some B s0 s1
  · exact teHash64WithSeeds_some B s0 s1

end Sys2Proof.Laws
end

