-- ==== Sys2Proof/Laws/Memory.lean ====
section
/-! SUPPORT. What the memory operations can do: a read after a write or a store, the canonical form,
admission, and the bytes of a buffer. -/

namespace Sys2Proof.Laws

open Sys2Proof.Machine

/-- A read after a write gives the byte written at that address, and every other byte as before. -/
theorem memory_read_write (m : Memory) (a : Nat) (b : Byte) (x : Nat) :
    Memory.read (Memory.write m a b) x = if x = a then some b else Memory.read m x := by
  induction m with
  | nil =>
    by_cases h : x = a
    · subst h; simp [Memory.write, Memory.read]
    · simp [Memory.write, Memory.read, h, Ne.symm h]
  | cons c m ih =>
    simp only [Memory.write]
    split
    · by_cases h : x = a
      · subst h; simp [Memory.read]
      · simp [Memory.read, h, Ne.symm h]
    · split
      · rename_i h1 h2
        by_cases h : x = a
        · subst h; simp [Memory.read]
        · have h3 : ¬ c.1 = x := by omega
          simp [Memory.read, h, Ne.symm h, h3]
      · rename_i h1 h2
        by_cases h : x = a
        · subst h
          have h3 : ¬ c.1 = x := by omega
          simp [Memory.read, h3, ih]
        · by_cases h4 : c.1 = x <;> simp [Memory.read, h4, ih, h]

/-- Every address a written memory lists is the one written or one listed before. -/
theorem memory_write_mem {m : Memory} {a : Nat} {b : Byte} {d : Host.Cell}
    (h : d ∈ Memory.write m a b) : d = (a, b) ∨ d ∈ m := by
  induction m with
  | nil => left; simpa [Memory.write] using h
  | cons c m ih =>
    simp only [Memory.write] at h
    split at h
    · rcases List.mem_cons.mp h with rfl | h
      · exact .inl rfl
      · exact .inr h
    · split at h
      · rcases List.mem_cons.mp h with rfl | h
        · exact .inl rfl
        · exact .inr (List.mem_cons_of_mem _ h)
      · rcases List.mem_cons.mp h with rfl | h
        · exact .inr (List.mem_cons_self)
        · rcases ih h with h | h
          · exact .inl h
          · exact .inr (List.mem_cons_of_mem _ h)

/-- A write keeps the canonical form. -/
theorem memory_write_wf {m : Memory} {a : Nat} (b : Byte) (ha : a < 2 ^ 64) (h : Memory.wf m) :
    Memory.wf (Memory.write m a b) := by
  refine ⟨?_, fun d hd => ?_⟩
  · have hp := h.1
    clear h
    induction m with
    | nil => simp [Memory.write]
    | cons c m ih =>
      rw [List.pairwise_cons] at hp
      simp only [Memory.write]
      split
      · rename_i h1
        refine List.pairwise_cons.mpr ⟨fun d hd => ?_, List.pairwise_cons.mpr hp⟩
        rcases List.mem_cons.mp hd with rfl | hd
        · exact h1
        · exact lt_trans h1 (hp.1 d hd)
      · split
        · rename_i h1 h2
          exact List.pairwise_cons.mpr ⟨fun d hd => by simpa [h2] using hp.1 d hd, hp.2⟩
        · rename_i h1 h2
          refine List.pairwise_cons.mpr ⟨fun d hd => ?_, ih hp.2⟩
          rcases memory_write_mem hd with rfl | hd
          · change c.1 < a
            omega
          · exact hp.1 d hd
  · rcases memory_write_mem hd with rfl | hd
    · exact ha
    · exact h.2 d hd

/-- A read after a host store gives the byte stored where the address is admitted, and every other byte
as before. -/
theorem memory_read_store (m : Memory) (a : Nat) (b : Byte) (x : Nat) :
    Memory.read (Memory.store m a b) x
      = if x = a ∧ (Memory.read m x).isSome then some b else Memory.read m x := by
  induction m with
  | nil => simp [Memory.store, Memory.read]
  | cons c m ih =>
    by_cases h : c.1 = x
    · subst h
      by_cases ha : c.1 = a <;> simp [Memory.store, Memory.read, ha]
    · simpa [Memory.store, Memory.read, h] using ih

/-- A host store admits no address and gives up none (R66). -/
theorem memory_store_admits (m : Memory) (a : Nat) (b : Byte) (x : Nat) :
    (Memory.read (Memory.store m a b) x).isSome = (Memory.read m x).isSome := by
  rw [memory_read_store]
  split
  · rename_i h
    simp [h.2]
  · rfl

/-- A host store keeps the canonical form, whatever its address. -/
theorem memory_store_wf {m : Memory} (a : Nat) (b : Byte) (h : Memory.wf m) :
    Memory.wf (Memory.store m a b) := by
  refine ⟨List.pairwise_map.mpr h.1, fun d hd => ?_⟩
  obtain ⟨c, hc, rfl⟩ := List.mem_map.mp hd
  exact h.2 c hc

/-- Placing bytes inside the address space keeps the canonical form. -/
theorem memory_writeBytes_wf {m : Memory} {a : Nat} {bs : Bytes} (ha : a + bs.length ≤ 2 ^ 64)
    (h : Memory.wf m) : Memory.wf (Memory.writeBytes m a bs) := by
  induction bs generalizing m a with
  | nil => exact h
  | cons b bs ih =>
    simp only [List.length_cons] at ha
    exact ih (by omega) (memory_write_wf b (by omega) h)

/-- Placed bytes are read back, and every byte outside them is as before. -/
theorem memory_read_writeBytes (m : Memory) (a : Nat) (bs : Bytes) (x : Nat) :
    Memory.read (Memory.writeBytes m a bs) x
      = if a ≤ x ∧ x < a + bs.length then bs[x - a]? else Memory.read m x := by
  induction bs generalizing m a with
  | nil =>
    rw [if_neg (by simp only [List.length_nil]; omega)]
    rfl
  | cons b bs ih =>
    simp only [Memory.writeBytes, ih, memory_read_write, List.length_cons]
    by_cases h : x = a
    · subst h
      simp
    · by_cases h1 : a ≤ x ∧ x < a + (bs.length + 1)
      · obtain ⟨k, rfl⟩ : ∃ k, x = a + 1 + k := ⟨x - a - 1, by omega⟩
        have h2 : a + 1 ≤ a + 1 + k ∧ a + 1 + k < a + 1 + bs.length := by omega
        have h3 : a + 1 + k - a = k + 1 := by omega
        simp [h1, h2, h3]
      · have h2 : ¬ (a + 1 ≤ x ∧ x < a + 1 + bs.length) := by omega
        rw [if_neg h2, if_neg h, if_neg h1]

/-- The bytes of a range, exactly: as many as asked for, each one the memory's. -/
theorem memory_readBytes_iff (m : Memory) (a n : Nat) (B : Bytes) :
    Memory.readBytes m a n = some B ↔
      B.length = n ∧ ∀ i < B.length, Memory.read m (a + i) = B[i]? := by
  induction n generalizing a B with
  | zero =>
    constructor
    · intro h
      obtain rfl : [] = B := by simpa [Memory.readBytes] using h
      exact ⟨rfl, fun i hi => by simp at hi⟩
    · rintro ⟨h, -⟩
      obtain rfl := List.eq_nil_of_length_eq_zero h
      rfl
  | succ n ih =>
    constructor
    · intro h
      simp only [Memory.readBytes] at h
      split at h
      · cases h
      · rename_i b hb
        split at h
        · cases h
        · rename_i bs hbs
          obtain rfl : b :: bs = B := by simpa using h
          obtain ⟨hl, hr⟩ := (ih (a + 1) bs).mp hbs
          refine ⟨by simp [hl], fun i hi => ?_⟩
          cases i with
          | zero => simpa using hb
          | succ i =>
            have := hr i (by simpa using hi)
            simpa [Nat.add_assoc, Nat.add_comm, Nat.add_left_comm] using this
    · rintro ⟨hl, hr⟩
      cases B with
      | nil => simp at hl
      | cons b bs =>
        have hb : Memory.read m a = some b := by simpa using hr 0 (by simp)
        have hbs : Memory.readBytes m (a + 1) n = some bs := by
          refine (ih (a + 1) bs).mpr ⟨by simpa using hl, fun i hi => ?_⟩
          have := hr (i + 1) (by simpa using hi)
          simpa [Nat.add_assoc, Nat.add_comm, Nat.add_left_comm] using this
        simp [Memory.readBytes, hb, hbs]

end Sys2Proof.Laws
end

