-- ==== Sys2Proof/Laws/State.lean ====
section
/-! SUPPORT. One lemma per field per update of the state, so that no proof unfolds a record
update. -/

namespace Sys2Proof.Laws

open Sys2Proof.Machine

/-! startIssue -/

@[simp] theorem startIssue_src (op : Byte) (s : State) : (startIssue op s).src = s.src := rfl
@[simp] theorem startIssue_len (op : Byte) (s : State) : (startIssue op s).len = s.len := rfl
@[simp] theorem startIssue_x0 (op : Byte) (s : State) : (startIssue op s).x0 = s.x0 := rfl
@[simp] theorem startIssue_x1 (op : Byte) (s : State) : (startIssue op s).x1 = s.x1 := rfl
@[simp] theorem startIssue_x2 (op : Byte) (s : State) : (startIssue op s).x2 = s.x2 := rfl
@[simp] theorem startIssue_x3 (op : Byte) (s : State) : (startIssue op s).x3 = s.x3 := rfl
@[simp] theorem startIssue_x4 (op : Byte) (s : State) : (startIssue op s).x4 = s.x4 := rfl
@[simp] theorem startIssue_x5 (op : Byte) (s : State) : (startIssue op s).x5 = s.x5 := rfl
@[simp] theorem startIssue_r0 (op : Byte) (s : State) : (startIssue op s).r0 = s.r0 := rfl
@[simp] theorem startIssue_r1 (op : Byte) (s : State) : (startIssue op s).r1 = s.r1 := rfl
@[simp] theorem startIssue_done (op : Byte) (s : State) : (startIssue op s).done = false := rfl
@[simp] theorem startIssue_fault (op : Byte) (s : State) : (startIssue op s).fault = s.fault := rfl
@[simp] theorem startIssue_fcode (op : Byte) (s : State) : (startIssue op s).fcode = s.fcode := rfl
@[simp] theorem startIssue_lastOpc (op : Byte) (s : State) : (startIssue op s).lastOpc = op := rfl
@[simp] theorem startIssue_written (op : Byte) (s : State) : (startIssue op s).written = s.written := rfl
@[simp] theorem startIssue_cfg (op : Byte) (s : State) : (startIssue op s).cfg = s.cfg := rfl
@[simp] theorem startIssue_mem (op : Byte) (s : State) : (startIssue op s).mem = s.mem := rfl
@[simp] theorem startIssue_pending (op : Byte) (s : State) : (startIssue op s).pending = s.pending := rfl
@[simp] theorem startIssue_got (op : Byte) (s : State) : (startIssue op s).got = s.got := rfl

/-! raiseFault -/

@[simp] theorem raiseFault_src (c : FaultCode) (s : State) : (raiseFault c s).src = s.src := rfl
@[simp] theorem raiseFault_len (c : FaultCode) (s : State) : (raiseFault c s).len = s.len := rfl
@[simp] theorem raiseFault_x0 (c : FaultCode) (s : State) : (raiseFault c s).x0 = s.x0 := rfl
@[simp] theorem raiseFault_x1 (c : FaultCode) (s : State) : (raiseFault c s).x1 = s.x1 := rfl
@[simp] theorem raiseFault_x2 (c : FaultCode) (s : State) : (raiseFault c s).x2 = s.x2 := rfl
@[simp] theorem raiseFault_x3 (c : FaultCode) (s : State) : (raiseFault c s).x3 = s.x3 := rfl
@[simp] theorem raiseFault_x4 (c : FaultCode) (s : State) : (raiseFault c s).x4 = s.x4 := rfl
@[simp] theorem raiseFault_x5 (c : FaultCode) (s : State) : (raiseFault c s).x5 = s.x5 := rfl
@[simp] theorem raiseFault_r0 (c : FaultCode) (s : State) : (raiseFault c s).r0 = s.r0 := rfl
@[simp] theorem raiseFault_r1 (c : FaultCode) (s : State) : (raiseFault c s).r1 = s.r1 := rfl
@[simp] theorem raiseFault_done (c : FaultCode) (s : State) : (raiseFault c s).done = false := rfl
@[simp] theorem raiseFault_fault (c : FaultCode) (s : State) : (raiseFault c s).fault = true := rfl
@[simp] theorem raiseFault_fcode (c : FaultCode) (s : State) : (raiseFault c s).fcode = fcodeOf c := rfl
@[simp] theorem raiseFault_lastOpc (c : FaultCode) (s : State) : (raiseFault c s).lastOpc = s.lastOpc := rfl
@[simp] theorem raiseFault_written (c : FaultCode) (s : State) : (raiseFault c s).written = s.written := rfl
@[simp] theorem raiseFault_cfg (c : FaultCode) (s : State) : (raiseFault c s).cfg = s.cfg := rfl
@[simp] theorem raiseFault_mem (c : FaultCode) (s : State) : (raiseFault c s).mem = s.mem := rfl
@[simp] theorem raiseFault_pending (c : FaultCode) (s : State) : (raiseFault c s).pending = s.pending := rfl
@[simp] theorem raiseFault_got (c : FaultCode) (s : State) : (raiseFault c s).got = s.got := rfl

/-! writeResult -/

@[simp] theorem writeResult_src (a b : U64) (s : State) : (writeResult a b s).src = s.src := rfl
@[simp] theorem writeResult_len (a b : U64) (s : State) : (writeResult a b s).len = s.len := rfl
@[simp] theorem writeResult_x0 (a b : U64) (s : State) : (writeResult a b s).x0 = s.x0 := rfl
@[simp] theorem writeResult_x1 (a b : U64) (s : State) : (writeResult a b s).x1 = s.x1 := rfl
@[simp] theorem writeResult_x2 (a b : U64) (s : State) : (writeResult a b s).x2 = s.x2 := rfl
@[simp] theorem writeResult_x3 (a b : U64) (s : State) : (writeResult a b s).x3 = s.x3 := rfl
@[simp] theorem writeResult_x4 (a b : U64) (s : State) : (writeResult a b s).x4 = s.x4 := rfl
@[simp] theorem writeResult_x5 (a b : U64) (s : State) : (writeResult a b s).x5 = s.x5 := rfl
@[simp] theorem writeResult_r0 (a b : U64) (s : State) : (writeResult a b s).r0 = a := rfl
@[simp] theorem writeResult_r1 (a b : U64) (s : State) : (writeResult a b s).r1 = b := rfl
@[simp] theorem writeResult_done (a b : U64) (s : State) : (writeResult a b s).done = s.done := rfl
@[simp] theorem writeResult_fault (a b : U64) (s : State) : (writeResult a b s).fault = s.fault := rfl
@[simp] theorem writeResult_fcode (a b : U64) (s : State) : (writeResult a b s).fcode = s.fcode := rfl
@[simp] theorem writeResult_lastOpc (a b : U64) (s : State) : (writeResult a b s).lastOpc = s.lastOpc := rfl
@[simp] theorem writeResult_written (a b : U64) (s : State) : (writeResult a b s).written = { s.written with r0 := true, r1 := true } := rfl
@[simp] theorem writeResult_cfg (a b : U64) (s : State) : (writeResult a b s).cfg = s.cfg := rfl
@[simp] theorem writeResult_mem (a b : U64) (s : State) : (writeResult a b s).mem = s.mem := rfl
@[simp] theorem writeResult_pending (a b : U64) (s : State) : (writeResult a b s).pending = s.pending := rfl
@[simp] theorem writeResult_got (a b : U64) (s : State) : (writeResult a b s).got = s.got := rfl

/-! resetEngine -/

@[simp] theorem resetEngine_src  (s : State) : (resetEngine s).src = 0 := rfl
@[simp] theorem resetEngine_len  (s : State) : (resetEngine s).len = 0 := rfl
@[simp] theorem resetEngine_x0  (s : State) : (resetEngine s).x0 = 0 := rfl
@[simp] theorem resetEngine_x1  (s : State) : (resetEngine s).x1 = 0 := rfl
@[simp] theorem resetEngine_x2  (s : State) : (resetEngine s).x2 = 0 := rfl
@[simp] theorem resetEngine_x3  (s : State) : (resetEngine s).x3 = 0 := rfl
@[simp] theorem resetEngine_x4  (s : State) : (resetEngine s).x4 = 0 := rfl
@[simp] theorem resetEngine_x5  (s : State) : (resetEngine s).x5 = 0 := rfl
@[simp] theorem resetEngine_r0  (s : State) : (resetEngine s).r0 = 0 := rfl
@[simp] theorem resetEngine_r1  (s : State) : (resetEngine s).r1 = 0 := rfl
@[simp] theorem resetEngine_done  (s : State) : (resetEngine s).done = false := rfl
@[simp] theorem resetEngine_fault  (s : State) : (resetEngine s).fault = false := rfl
@[simp] theorem resetEngine_fcode  (s : State) : (resetEngine s).fcode = 0 := rfl
@[simp] theorem resetEngine_lastOpc  (s : State) : (resetEngine s).lastOpc = 0 := rfl
@[simp] theorem resetEngine_written  (s : State) : (resetEngine s).written = Written.nothing := rfl
@[simp] theorem resetEngine_cfg  (s : State) : (resetEngine s).cfg = s.cfg := rfl
@[simp] theorem resetEngine_mem  (s : State) : (resetEngine s).mem = s.mem := rfl
@[simp] theorem resetEngine_pending  (s : State) : (resetEngine s).pending = s.pending := rfl
@[simp] theorem resetEngine_got  (s : State) : (resetEngine s).got = s.got := rfl

/-! loadReg -/

@[simp] theorem loadReg_src (r : Reg) (s : State) : (loadReg r s).src = s.src := rfl
@[simp] theorem loadReg_len (r : Reg) (s : State) : (loadReg r s).len = s.len := rfl
@[simp] theorem loadReg_x0 (r : Reg) (s : State) : (loadReg r s).x0 = s.x0 := rfl
@[simp] theorem loadReg_x1 (r : Reg) (s : State) : (loadReg r s).x1 = s.x1 := rfl
@[simp] theorem loadReg_x2 (r : Reg) (s : State) : (loadReg r s).x2 = s.x2 := rfl
@[simp] theorem loadReg_x3 (r : Reg) (s : State) : (loadReg r s).x3 = s.x3 := rfl
@[simp] theorem loadReg_x4 (r : Reg) (s : State) : (loadReg r s).x4 = s.x4 := rfl
@[simp] theorem loadReg_x5 (r : Reg) (s : State) : (loadReg r s).x5 = s.x5 := rfl
@[simp] theorem loadReg_r0 (r : Reg) (s : State) : (loadReg r s).r0 = s.r0 := rfl
@[simp] theorem loadReg_r1 (r : Reg) (s : State) : (loadReg r s).r1 = s.r1 := rfl
@[simp] theorem loadReg_done (r : Reg) (s : State) : (loadReg r s).done = s.done := rfl
@[simp] theorem loadReg_fault (r : Reg) (s : State) : (loadReg r s).fault = s.fault := rfl
@[simp] theorem loadReg_fcode (r : Reg) (s : State) : (loadReg r s).fcode = s.fcode := rfl
@[simp] theorem loadReg_lastOpc (r : Reg) (s : State) : (loadReg r s).lastOpc = s.lastOpc := rfl
@[simp] theorem loadReg_written (r : Reg) (s : State) : (loadReg r s).written = s.written := rfl
@[simp] theorem loadReg_cfg (r : Reg) (s : State) : (loadReg r s).cfg = s.cfg := rfl
@[simp] theorem loadReg_mem (r : Reg) (s : State) : (loadReg r s).mem = s.mem := rfl
@[simp] theorem loadReg_pending (r : Reg) (s : State) : (loadReg r s).pending = s.pending := rfl
@[simp] theorem loadReg_got (r : Reg) (s : State) : (loadReg r s).got = s.got ++ [readReg r s] := rfl

/-! complete -/

@[simp] theorem complete_done (r : Result) (s : State) : (complete r s).done = true := by
  cases r <;> rfl

@[simp] theorem complete_src (r : Result) (s : State) : (complete r s).src = s.src := by
  cases r <;> rfl

@[simp] theorem complete_len (r : Result) (s : State) : (complete r s).len = s.len := by
  cases r <;> rfl

@[simp] theorem complete_x0 (r : Result) (s : State) : (complete r s).x0 = s.x0 := by
  cases r <;> rfl

@[simp] theorem complete_x1 (r : Result) (s : State) : (complete r s).x1 = s.x1 := by
  cases r <;> rfl

@[simp] theorem complete_x2 (r : Result) (s : State) : (complete r s).x2 = s.x2 := by
  cases r <;> rfl

@[simp] theorem complete_x3 (r : Result) (s : State) : (complete r s).x3 = s.x3 := by
  cases r <;> rfl

@[simp] theorem complete_x4 (r : Result) (s : State) : (complete r s).x4 = s.x4 := by
  cases r <;> rfl

@[simp] theorem complete_x5 (r : Result) (s : State) : (complete r s).x5 = s.x5 := by
  cases r <;> rfl

@[simp] theorem complete_fault (r : Result) (s : State) : (complete r s).fault = s.fault := by
  cases r <;> rfl

@[simp] theorem complete_fcode (r : Result) (s : State) : (complete r s).fcode = s.fcode := by
  cases r <;> rfl

@[simp] theorem complete_lastOpc (r : Result) (s : State) : (complete r s).lastOpc = s.lastOpc := by
  cases r <;> rfl

@[simp] theorem complete_cfg (r : Result) (s : State) : (complete r s).cfg = s.cfg := by
  cases r <;> rfl

@[simp] theorem complete_mem (r : Result) (s : State) : (complete r s).mem = s.mem := by
  cases r <;> rfl

@[simp] theorem complete_pending (r : Result) (s : State) : (complete r s).pending = s.pending := by
  cases r <;> rfl

@[simp] theorem complete_got (r : Result) (s : State) : (complete r s).got = s.got := by
  cases r <;> rfl

theorem complete_none (s : State) : complete .none s = { s with done := true } := rfl

theorem complete_w32 (h : U32) (s : State) :
    complete (.w32 h) s = { writeResult (zext64 h) 0 s with done := true } := rfl

theorem complete_w64 (h : U64) (s : State) :
    complete (.w64 h) s = { writeResult h 0 s with done := true } := rfl

theorem complete_pair (p : U64 × U64) (s : State) :
    complete (.pair p) s = { writeResult p.1 p.2 s with done := true } := rfl

/-- A completion writes R0 and R1 both, or neither. -/
theorem complete_written_together (r : Result) (s : State) (h : s.written.r0 = s.written.r1) :
    (complete r s).written.r0 = (complete r s).written.r1 := by
  cases r <;> simp [complete, h]

/-! writeReg -/

@[simp] theorem writeReg_r0 (r : Reg) (v : U64) (s : State) : (writeReg r v s).r0 = s.r0 := by
  cases r <;> rfl

@[simp] theorem writeReg_r1 (r : Reg) (v : U64) (s : State) : (writeReg r v s).r1 = s.r1 := by
  cases r <;> rfl

@[simp] theorem writeReg_done (r : Reg) (v : U64) (s : State) : (writeReg r v s).done = s.done := by
  cases r <;> rfl

@[simp] theorem writeReg_fault (r : Reg) (v : U64) (s : State) : (writeReg r v s).fault = s.fault := by
  cases r <;> rfl

@[simp] theorem writeReg_fcode (r : Reg) (v : U64) (s : State) : (writeReg r v s).fcode = s.fcode := by
  cases r <;> rfl

@[simp] theorem writeReg_lastOpc (r : Reg) (v : U64) (s : State) : (writeReg r v s).lastOpc = s.lastOpc := by
  cases r <;> rfl

@[simp] theorem writeReg_cfg (r : Reg) (v : U64) (s : State) : (writeReg r v s).cfg = s.cfg := by
  cases r <;> rfl

@[simp] theorem writeReg_mem (r : Reg) (v : U64) (s : State) : (writeReg r v s).mem = s.mem := by
  cases r <;> rfl

@[simp] theorem writeReg_pending (r : Reg) (v : U64) (s : State) : (writeReg r v s).pending = s.pending := by
  cases r <;> rfl

@[simp] theorem writeReg_got (r : Reg) (v : U64) (s : State) : (writeReg r v s).got = s.got := by
  cases r <;> rfl

/-- A host store writes neither R0's nor R1's written flag. -/
theorem writeReg_written_results (r : Reg) (v : U64) (s : State) :
    (writeReg r v s).written.r0 = s.written.r0 ∧ (writeReg r v s).written.r1 = s.written.r1 := by
  cases r <;> exact ⟨rfl, rfl⟩

/-- An operand register reads back what was stored to it. -/
theorem readReg_writeReg_operand (r : OperandReg) (v : U64) (s : State) :
    readReg (operandReg r) (writeReg (operandReg r) v s) = v := by
  cases r <;> rfl

end Sys2Proof.Laws
end

