-- ==== Sys2Proof/Laws/Issue.lean ====
section
/-! SUPPORT. What the buffer read and the issue step can do, said once (20_memory.md rule R61;
30_encoding.md rule R86; 60_exceptions.md rule R345). -/

namespace Sys2Proof.Laws

open Sys2Proof.Machine

/-- The buffer read gives `B` exactly when the buffer of the state is `B`. -/
theorem readBuffer_next_iff (s : State) (B : Bytes) :
    readBuffer s = .next B ↔ BufferIs s B := by
  unfold readBuffer BufferIs
  split
  · rename_i h
    constructor
    · intro e; cases e
    · rintro ⟨-, h2, -⟩; omega
  · split
    · rename_i h1 h2
      constructor
      · intro e; cases e
      · rintro ⟨-, -, h3, -⟩; simp [h2] at h3
    · rename_i h1 h2
      have h2 : touchesSideEffects s.cfg.sideEffects s.src.toNat s.len.toNat = false := by
        simpa using h2
      split
      · rename_i B' hB
        rw [memory_readBytes_iff] at hB
        constructor
        · intro e
          obtain rfl : B' = B := by simpa using e
          exact ⟨hB.1, by omega, h2, hB.2⟩
        · rintro ⟨h3, -, -, h4⟩
          have hB' := (memory_readBytes_iff _ _ _ _).mpr hB
          rw [(memory_readBytes_iff _ _ _ _).mpr ⟨h3, h4⟩] at hB'
          obtain rfl : B = B' := by simpa using hB'
          rfl
      · rename_i hB
        constructor
        · intro e; cases e
        · rintro ⟨h3, -, -, h4⟩
          rw [(memory_readBytes_iff _ _ _ _).mpr ⟨h3, h4⟩] at hB
          cases hB

/-- A buffer read stops in one of three ways. -/
theorem readBuffer_cases (s : State) :
    (∃ B, readBuffer s = .next B) ∨ (∃ why, readBuffer s = .fault (.stuck why))
      ∨ readBuffer s = .refused .sideEffectMemory := by
  unfold readBuffer
  split
  · exact .inr (.inl ⟨_, rfl⟩)
  · split
    · exact .inr (.inr rfl)
    · split
      · exact .inl ⟨_, rfl⟩
      · exact .inr (.inl ⟨_, rfl⟩)

/-- An empty buffer is read at every address (R61). -/
theorem bufferIs_nil {s : State} (h : s.len = 0) : BufferIs s [] := by
  have h0 : s.len.toNat = 0 := by rw [h]; rfl
  refine ⟨by simp [h0], ?_, ?_, fun i hi => by simp at hi⟩
  · have := s.src.isLt
    omega
  · rw [touchesSideEffects, h0, List.any_eq_false]
    intro r _
    simp

variable {i : Instr} {s : State} {body : Bytes → Option Result}

/-- A halted engine ignores the command (R347). -/
theorem issue_ignored (h : s.fault = true) : issue i s body = .next s := by
  simp [issue, h]

/-- A command whose gate is not within HWCAP raises MISCONFIG (R342). -/
theorem issue_misconfig (hf : s.fault = false)
    (hg : capSubset (instrGate s.cfg i) s.cfg.hwcap = false) :
    issue i s body = .next (raiseFault .misconfig (startIssue i.opc s)) := by
  simp [issue, hf, hg]

/-- A command whose LEN is outside its domain raises DOMAIN (R344). -/
theorem issue_domain (hf : s.fault = false)
    (hg : capSubset (instrGate s.cfg i) s.cfg.hwcap = true)
    (hd : instrDomain s.len.toNat i = false) :
    issue i s body = .next (raiseFault .domain (startIssue i.opc s)) := by
  simp [issue, hf, hg, hd]

/-- A command past its checks completes with the result its body computes (R86, R87). -/
theorem issue_complete {B : Bytes} {r : Result} (hf : s.fault = false)
    (hg : capSubset (instrGate s.cfg i) s.cfg.hwcap = true)
    (hd : instrDomain s.len.toNat i = true) (hB : commandBuffer i s = .next B)
    (hr : body B = some r) : issue i s body = .next (complete r (startIssue i.opc s)) := by
  simp [issue, hf, hg, hd, hB, hr]

/-- A buffer command past its checks, by its buffer. -/
theorem issue_buffer {B : Bytes} {r : Result} (hf : s.fault = false)
    (hg : capSubset (instrGate s.cfg i) s.cfg.hwcap = true)
    (hd : instrDomain s.len.toNat i = true) (hb : (instrReads i).buffer = true)
    (hB : BufferIs s B) (hr : body B = some r) :
    issue i s body = .next (complete r (startIssue i.opc s)) :=
  issue_complete hf hg hd (by simp [commandBuffer, hb, (readBuffer_next_iff s B).mpr hB]) hr

/-- Everything an issue that answers a next state can do. -/
theorem issue_next_cases {t : State} (h : issue i s body = .next t) :
    (s.fault = true ∧ t = s)
    ∨ (s.fault = false ∧ capSubset (instrGate s.cfg i) s.cfg.hwcap = false
        ∧ t = raiseFault .misconfig (startIssue i.opc s))
    ∨ (s.fault = false ∧ capSubset (instrGate s.cfg i) s.cfg.hwcap = true
        ∧ instrDomain s.len.toNat i = false ∧ t = raiseFault .domain (startIssue i.opc s))
    ∨ (s.fault = false ∧ capSubset (instrGate s.cfg i) s.cfg.hwcap = true
        ∧ instrDomain s.len.toNat i = true ∧ ∃ B r, commandBuffer i s = .next B
        ∧ body B = some r ∧ t = complete r (startIssue i.opc s)) := by
  cases hf : s.fault with
  | true =>
    rw [issue_ignored hf] at h
    exact .inl ⟨rfl, by simpa using h.symm⟩
  | false =>
    cases hg : capSubset (instrGate s.cfg i) s.cfg.hwcap with
    | false =>
      rw [issue_misconfig hf hg] at h
      exact .inr (.inl ⟨rfl, rfl, by simpa using h.symm⟩)
    | true =>
      cases hd : instrDomain s.len.toNat i with
      | false =>
        rw [issue_domain hf hg hd] at h
        exact .inr (.inr (.inl ⟨rfl, rfl, rfl, by simpa using h.symm⟩))
      | true =>
        refine .inr (.inr (.inr ⟨rfl, rfl, rfl, ?_⟩))
        simp only [issue, hf, hg, hd, Bool.not_true, Bool.false_eq_true, if_false] at h
        split at h
        · cases h
        · cases h
        · rename_i B hB
          split at h
          · rename_i r hr
            exact ⟨B, r, hB, hr, by simpa using h.symm⟩
          · cases h

/-- No issue stops but at its buffer or with InternalRange. -/
theorem issue_cases (i : Instr) (s : State) (body : Bytes → Option Result) :
    (∃ t, issue i s body = .next t)
    ∨ (∃ why, issue i s body = .fault (.stuck why) ∧ (instrReads i).buffer = true)
    ∨ (issue i s body = .refused .sideEffectMemory ∧ (instrReads i).buffer = true)
    ∨ (issue i s body = .fault .internalRange ∧ s.fault = false
        ∧ instrDomain s.len.toNat i = true ∧ ∃ B, commandBuffer i s = .next B ∧ body B = none) := by
  cases hf : s.fault with
  | true => exact .inl ⟨s, issue_ignored hf⟩
  | false =>
    cases hg : capSubset (instrGate s.cfg i) s.cfg.hwcap with
    | false => exact .inl ⟨_, issue_misconfig hf hg⟩
    | true =>
      cases hd : instrDomain s.len.toNat i with
      | false => exact .inl ⟨_, issue_domain hf hg hd⟩
      | true =>
        cases hb : (instrReads i).buffer with
        | false =>
          cases hr : body [] with
          | some r => exact .inl ⟨_, issue_complete hf hg hd (by simp [commandBuffer, hb]) hr⟩
          | none =>
            exact .inr (.inr (.inr ⟨by simp [issue, hf, hg, hd, commandBuffer, hb, hr], rfl, rfl,
              [], by simp [commandBuffer, hb], hr⟩))
        | true =>
          rcases readBuffer_cases s with ⟨B, hB⟩ | ⟨why, hB⟩ | hB
          · cases hr : body B with
            | some r =>
              exact .inl ⟨_, issue_complete hf hg hd (by simp [commandBuffer, hb, hB]) hr⟩
            | none =>
              exact .inr (.inr (.inr ⟨by simp [issue, hf, hg, hd, commandBuffer, hb, hB, hr], rfl,
                rfl, B, by simp [commandBuffer, hb, hB], hr⟩))
          · exact .inr (.inl ⟨why, by simp [issue, hf, hg, hd, commandBuffer, hb, hB], rfl⟩)
          · exact .inr (.inr (.inl ⟨by simp [issue, hf, hg, hd, commandBuffer, hb, hB], rfl⟩))

end Sys2Proof.Laws
end

