-- ==== Sys2Proof/Laws/Step.lean ====
section
/-! SUPPORT. What a step does, by the host's next access (30_encoding.md rule R86; 10_state.md rules
R32 and R41). -/

namespace Sys2Proof.Laws

open Sys2Proof.Machine

/-- Every register is at its own offset. -/
theorem regAt_regOffset (r : Reg) : regAt (regOffset r) = some r := by
  cases r with
  | reserved k => revert k; decide
  | _ => decide

/-- An aligned 64-bit access at a register's address reaches that register. -/
@[simp] theorem windowReg_regOffset (base : Nat) (r : Reg) :
    windowReg base (base + regOffset r) 8 = some r := by
  simp [windowReg, regAt_regOffset]

/-- Only an aligned 64-bit access to the window reaches a register (R41). -/
theorem windowReg_some {base addr bytes : Nat} {r : Reg} (h : windowReg base addr bytes = some r) :
    bytes = 8 ∧ addr = base + regOffset r := by
  unfold windowReg at h
  split at h
  · rename_i hc
    refine ⟨hc.1, ?_⟩
    obtain ⟨off, hoff⟩ : ∃ off, addr = base + off := ⟨addr - base, by omega⟩
    subst hoff
    rw [Nat.add_sub_cancel_left] at h
    congr 1
    unfold regAt at h
    split at h
    · rename_i h8
      obtain ⟨q, rfl⟩ : ∃ q, off = 8 * q := ⟨off / 8, by omega⟩
      rw [Nat.mul_div_cancel_left _ (by decide)] at h
      split at h
      all_goals first
        | (obtain rfl := Option.some.inj h; rfl)
        | skip
      split at h
      · obtain rfl := Option.some.inj h
        simp only [regOffset]
        have : 14 ≤ q := by
          by_contra hq
          interval_cases q <;> simp_all
        omega
      · cases h
    · cases h
  · cases h

/-- A step of an instance with an access pending. -/
theorem step_pending {s : State} {a : HostAction} {rest : List HostAction}
    (hc : configAdmitted s.cfg = true) (hp : s.pending = a :: rest) :
    step s = hostAction a { s with pending := rest } := by
  simp [step, hc, hostStep, hp]

/-- A step of an instance with nothing pending. -/
theorem step_idle {s : State} (hc : configAdmitted s.cfg = true) (hp : s.pending = []) :
    step s = .next s := by
  simp [step, hc, hostStep, hp]

/-- A step in which the host stores to a register. -/
theorem step_store {s : State} {r : Reg} {v : U64} {rest : List HostAction}
    (h : HostStores s r v rest) : step s = storeReg r v { s with pending := rest } := by
  rw [step_pending h.1 h.2]
  simp [hostAction]

/-- A step in which the host loads a register. -/
theorem step_load {s : State} {r : Reg} {rest : List HostAction} (h : HostLoads s r rest) :
    step s = .next (loadReg r { s with pending := rest }) := by
  rw [step_pending h.1 h.2]
  simp [hostAction]

/-- A step in which the host stores a command word to CMD. -/
theorem step_cmd {s : State} {v : U64} {rest : List HostAction} (h : HostStores s .cmd v rest) :
    step s = issueWord v { s with pending := rest } := by
  rw [step_store h]
  simp [storeReg]

end Sys2Proof.Laws
end

