-- ==== Sys2Proof/Laws/Exec.lean ====
section
/-! SUPPORT. Each command's datapath, and its meaning as the shared issue step around that datapath:
the one lemma a proof about `exec` cites instead of unfolding a meaning (30_encoding.md rule R86). -/

namespace Sys2Proof.Laws

open Sys2Proof.Machine

/-- What each command computes from its buffer, by its rule (files 40 to 47). -/
def bodyOf (s : State) : Instr → Bytes → Option Result
  | .nop, _ => some .none
  | .fetch32, B => (fetch32 B 0).map .w32
  | .fetch64, B => (fetch64 B 0).map .w64
  | .rot32, _ => some (.w32 (rotate32 (operand32 s.x0) (rotateAmount32 s.x1)))
  | .rot64, _ => some (.w64 (rotate64 s.x0 (rotateAmount64 s.x1)))
  | .bswap32, _ => some (.w32 (bswap32 (operand32 s.x0)))
  | .bswap64, _ => some (.w64 (bswap64 s.x0))
  | .fmix, _ => some (.w32 (fmix (operand32 s.x0)))
  | .mur, _ => some (.w32 (mur (operand32 s.x0) (operand32 s.x1)))
  | .shiftmix, _ => some (.w64 (shiftMix s.x0))
  | .hl16, _ => some (.w64 (hashLen16 s.x0 s.x1))
  | .hl16m, _ => some (.w64 (hashLen16M s.x0 s.x1 s.x2))
  | .tweak32, _ => some (.w32 (tweak32 (operand32 s.x0)))
  | .tweak64, _ => some (.w64 (tweak64 s.x0))
  | .tweak128, _ => some (.pair (tweak128 (s.x0, s.x1)))
  | .naLen0to16, B => (naLen0to16 B).map .w64
  | .naLen17to32, B => (naLen17to32 B).map .w64
  | .naLen33to64, B => (naLen33to64 B).map .w64
  | .weak32, _ => some (.pair (weak32 s.x0 s.x1 s.x2 s.x3 s.x4 s.x5))
  | .weak32m, B => (weakMem B 0 s.x0 s.x1).map .pair
  | .xoH32, B => (xoH32 B 0 B.length s.x0 s.x1 s.x2).map .w64
  | .xoLen33to64, B => (xoLen33to64 B).map .w64
  | .xoLen65to96, B => (xoLen65to96 B).map .w64
  | .uoH, _ => some (.w64 (uoFold s.x0 s.x1 s.x2 (rotateAmount64 s.x3)))
  | .mkLen0to4, B => some (.w32 (mkLen0to4 B (operand32 s.x0)))
  | .mkLen5to12, B => (mkLen5to12 B (operand32 s.x0)).map .w32
  | .mkLen13to24, B => (mkLen13to24 B (operand32 s.x0)).map .w32
  | .ccLen0to4, B => some (.w32 (ccLen0to4 B))
  | .ccLen5to12, B => (ccLen5to12 B).map .w32
  | .ccLen13to24, B => (ccLen13to24 B).map .w32
  | .ccCitymurmur, B => (cityMurmur B s.x0 s.x1).map .pair
  | .naH64, B => (naHash64 B).map .w64
  | .naH64s, B => (naHash64WithSeed B s.x0).map .w64
  | .naH64ss, B => (naHash64WithSeeds B s.x0 s.x1).map .w64
  | .uoH64, B => (uoHash64 B).map .w64
  | .uoH64s, B => (uoHash64WithSeed B s.x0).map .w64
  | .uoH64ss, B => (uoHash64WithSeeds B s.x0 s.x1).map .w64
  | .xoH64, B => (xoHash64 B).map .w64
  | .xoH64s, B => (xoHash64WithSeed B s.x0).map .w64
  | .xoH64ss, B => (xoHash64WithSeeds B s.x0 s.x1).map .w64
  | .teH64, B => (teHash64 B).map .w64
  | .teH64s, B => (teHash64WithSeed B s.x0).map .w64
  | .teH64ss, B => (teHash64WithSeeds B s.x0 s.x1).map .w64
  | .ntH32, B => (ntHash32 B).map .w32
  | .ntH32s, B => (ntHash32WithSeed B (operand32 s.x0)).map .w32
  | .mkH32, B => (mkHash32 B).map .w32
  | .mkH32s, B => (mkHash32WithSeed B (operand32 s.x0)).map .w32
  | .suH32, B => (suHash32 B).map .w32
  | .suH32s, B => (suHash32WithSeed B (operand32 s.x0)).map .w32
  | .saH32, B => (saHash32 B).map .w32
  | .saH32s, B => (saHash32WithSeed B (operand32 s.x0)).map .w32
  | .ccH32, B => (ccHash32 B).map .w32
  | .ccH32s, B => (ccHash32WithSeed B (operand32 s.x0)).map .w32
  | .ccH128, B => (ccHash128 B).map .pair
  | .ccH128s, B => (city128WithSeed B s.x0 s.x1).map .pair
  | .hash32, B => (selHash32 s.cfg.sel32 B).map (fun h => .w32 (out32 s.cfg.debug h))
  | .hash32s, B =>
    (selHash32WithSeed s.cfg.sel32 B (operand32 s.x0)).map (fun h => .w32 (out32 s.cfg.debug h))
  | .hash64, B => (selHash64 s.cfg.sel64 B).map (fun h => .w64 (out64 s.cfg.debug h))
  | .hash64s, B =>
    (selHash64WithSeed s.cfg.sel64s B s.x0).map (fun h => .w64 (out64 s.cfg.debug h))
  | .hash64ss, B =>
    (selHash64WithSeeds s.cfg.sel64s B s.x0 s.x1).map (fun h => .w64 (out64 s.cfg.debug h))
  | .hash128, B => (ccHash128 B).map (fun h => .pair (out128 s.cfg.debug h))
  | .hash128s, B => (city128WithSeed B s.x0 s.x1).map (fun h => .pair (out128 s.cfg.debug h))
  | .fp32, B => (mkHash32 B).map .w32
  | .fp64, B => (naHash64 B).map .w64
  | .fp128, B => (ccHash128 B).map .pair

/-- Every meaning is the shared issue step around its datapath. -/
theorem exec_eq_issue (i : Instr) (s : State) : exec i s = issue i s (bodyOf s i) := by
  cases i <;> rfl

/-- A value under a map is a value. -/
theorem map_some {α : Type} {o : Option α} {f : α → Result} (h : ∃ r, o = some r) :
    ∃ r, o.map f = some r := by
  obtain ⟨r, rfl⟩ := h
  exact ⟨f r, rfl⟩

/-- A command that reads no buffer has a result whatever its operands are. -/
theorem bodyOf_registers (s : State) {i : Instr} (h : (instrReads i).buffer = false) :
    ∃ r, bodyOf s i [] = some r := by
  cases i <;> first | exact ⟨_, rfl⟩ | cases h

/-- A buffer command has a result on every buffer of its domain (R67). -/
theorem bodyOf_buffer (s : State) {i : Instr} {B : Bytes} (h : (instrReads i).buffer = true)
    (hd : instrDomain B.length i = true) : ∃ r, bodyOf s i B = some r := by
  cases i
  case fetch32 =>
    simp only [instrDomain, decide_eq_true_eq] at hd
    exact map_some ⟨_, fetch32_inside (by omega)⟩
  case fetch64 =>
    simp only [instrDomain, decide_eq_true_eq] at hd
    exact map_some ⟨_, fetch64_inside (by omega)⟩
  case naLen0to16 =>
    simp only [instrDomain, decide_eq_true_eq] at hd
    exact map_some (naLen0to16_some hd)
  case naLen17to32 =>
    simp only [instrDomain, decide_eq_true_eq] at hd
    exact map_some (naLen17to32_some hd.1)
  case naLen33to64 =>
    simp only [instrDomain, decide_eq_true_eq] at hd
    exact map_some (naLen33to64_some hd.1)
  case weak32m =>
    simp only [instrDomain, decide_eq_true_eq] at hd
    exact map_some ⟨_, weakMem_some (by omega) s.x0 s.x1⟩
  case xoH32 =>
    simp only [instrDomain, decide_eq_true_eq] at hd
    exact map_some (xoH32_some hd (by omega) s.x0 s.x1 s.x2)
  case xoLen33to64 =>
    simp only [instrDomain, decide_eq_true_eq] at hd
    exact map_some (xoLen33to64_some hd.1)
  case xoLen65to96 =>
    simp only [instrDomain, decide_eq_true_eq] at hd
    exact map_some (xoLen65to96_some hd.1)
  case mkLen0to4 => exact ⟨_, rfl⟩
  case mkLen5to12 =>
    simp only [instrDomain, decide_eq_true_eq] at hd
    exact map_some (mkLen5to12_some hd.1 hd.2 _)
  case mkLen13to24 =>
    simp only [instrDomain, decide_eq_true_eq] at hd
    exact map_some (mkLen13to24_some hd.1 _)
  case ccLen0to4 => exact ⟨_, rfl⟩
  case ccLen5to12 =>
    simp only [instrDomain, decide_eq_true_eq] at hd
    exact map_some (ccLen5to12_some hd.1 hd.2)
  case ccLen13to24 =>
    simp only [instrDomain, decide_eq_true_eq] at hd
    exact map_some (ccLen13to24_some hd.1)
  case ccCitymurmur => exact map_some (cityMurmur_some B s.x0 s.x1)
  case naH64 => exact map_some (naHash64_some B)
  case naH64s => exact map_some (naHash64WithSeed_some B s.x0)
  case naH64ss => exact map_some (naHash64WithSeeds_some B s.x0 s.x1)
  case uoH64 => exact map_some (uoHash64_some B)
  case uoH64s => exact map_some (uoHash64WithSeed_some B s.x0)
  case uoH64ss => exact map_some (uoHash64WithSeeds_some B s.x0 s.x1)
  case xoH64 => exact map_some (xoHash64_some B)
  case xoH64s => exact map_some (xoHash64WithSeed_some B s.x0)
  case xoH64ss => exact map_some (xoHash64WithSeeds_some B s.x0 s.x1)
  case teH64 => exact map_some (teHash64_some B)
  case teH64s => exact map_some (teHash64WithSeed_some B s.x0)
  case teH64ss => exact map_some (teHash64WithSeeds_some B s.x0 s.x1)
  case ntH32 => exact map_some (ntHash32_some B)
  case ntH32s => exact map_some (ntHash32WithSeed_some B (operand32 s.x0))
  case mkH32 => exact map_some (mkHash32_some B)
  case mkH32s => exact map_some (mkHash32WithSeed_some B (operand32 s.x0))
  case suH32 => exact map_some (suHash32_some B)
  case suH32s => exact map_some (suHash32WithSeed_some B (operand32 s.x0))
  case saH32 => exact map_some (saHash32_some B)
  case saH32s => exact map_some (saHash32WithSeed_some B (operand32 s.x0))
  case ccH32 => exact map_some (ccHash32_some B)
  case ccH32s => exact map_some (ccHash32WithSeed_some B (operand32 s.x0))
  case ccH128 => exact map_some (ccHash128_some B)
  case ccH128s => exact map_some (city128WithSeed_some B s.x0 s.x1)
  case hash32 => exact map_some (selHash32_some s.cfg.sel32 B)
  case hash32s => exact map_some (selHash32WithSeed_some s.cfg.sel32 B (operand32 s.x0))
  case hash64 => exact map_some (selHash64_some s.cfg.sel64 B)
  case hash64s => exact map_some (selHash64WithSeed_some s.cfg.sel64s B s.x0)
  case hash64ss => exact map_some (selHash64WithSeeds_some s.cfg.sel64s B s.x0 s.x1)
  case hash128 => exact map_some (ccHash128_some B)
  case hash128s => exact map_some (city128WithSeed_some B s.x0 s.x1)
  case fp32 => exact map_some (mkHash32_some B)
  case fp64 => exact map_some (naHash64_some B)
  case fp128 => exact map_some (ccHash128_some B)
  all_goals cases h

theorem raiseFault_startIssue (c : FaultCode) (op : Byte) (s : State) :
    raiseFault c (startIssue op s) = faultedWith op (fcodeOf c) s := rfl

/-- A command that reads no buffer completes with its datapath's result. -/
theorem exec_registers (i : Instr) {s : State} {r : Result} (hf : s.fault = false)
    (hg : capSubset (instrGate s.cfg i) s.cfg.hwcap = true)
    (hd : instrDomain s.len.toNat i = true) (hb : (instrReads i).buffer = false)
    (hr : bodyOf s i [] = some r) : exec i s = .next (complete r (startIssue i.opc s)) := by
  rw [exec_eq_issue]
  exact issue_complete hf hg hd (by simp [commandBuffer, hb]) hr

/-- A buffer command completes with its datapath's result on its buffer. -/
theorem exec_buffer (i : Instr) {s : State} {B : Bytes} {r : Result} (hf : s.fault = false)
    (hg : capSubset (instrGate s.cfg i) s.cfg.hwcap = true)
    (hd : instrDomain B.length i = true) (hb : (instrReads i).buffer = true) (hB : BufferIs s B)
    (hr : bodyOf s i B = some r) : exec i s = .next (complete r (startIssue i.opc s)) := by
  rw [exec_eq_issue]
  exact issue_buffer hf hg (by rw [← hB.1]; exact hd) hb hB hr

/-! The same by the width of the result, in the terms of claims -/

section Widths

variable (i : Instr) {s : State} {B : Bytes} (hf : s.fault = false)
  (hg : capSubset (instrGate s.cfg i) s.cfg.hwcap = true)

include hf hg

theorem exec_registers_w32 {h : U32} (hd : instrDomain s.len.toNat i = true)
    (hb : (instrReads i).buffer = false) (hr : bodyOf s i [] = some (.w32 h)) :
    exec i s = .next (completedWith i.opc (h.setWidth 64) 0 s) :=
  exec_registers i hf hg hd hb hr

theorem exec_registers_w64 {h : U64} (hd : instrDomain s.len.toNat i = true)
    (hb : (instrReads i).buffer = false) (hr : bodyOf s i [] = some (.w64 h)) :
    exec i s = .next (completedWith i.opc h 0 s) :=
  exec_registers i hf hg hd hb hr

theorem exec_registers_pair {p : U64 × U64} (hd : instrDomain s.len.toNat i = true)
    (hb : (instrReads i).buffer = false) (hr : bodyOf s i [] = some (.pair p)) :
    exec i s = .next (completedWith i.opc p.1 p.2 s) :=
  exec_registers i hf hg hd hb hr

theorem exec_buffer_w32 {h : U32} (hd : instrDomain B.length i = true)
    (hb : (instrReads i).buffer = true) (hB : BufferIs s B)
    (hr : bodyOf s i B = some (.w32 h)) :
    exec i s = .next (completedWith i.opc (h.setWidth 64) 0 s) :=
  exec_buffer i hf hg hd hb hB hr

theorem exec_buffer_w64 {h : U64} (hd : instrDomain B.length i = true)
    (hb : (instrReads i).buffer = true) (hB : BufferIs s B)
    (hr : bodyOf s i B = some (.w64 h)) :
    exec i s = .next (completedWith i.opc h 0 s) :=
  exec_buffer i hf hg hd hb hB hr

theorem exec_buffer_pair {p : U64 × U64} (hd : instrDomain B.length i = true)
    (hb : (instrReads i).buffer = true) (hB : BufferIs s B)
    (hr : bodyOf s i B = some (.pair p)) :
    exec i s = .next (completedWith i.opc p.1 p.2 s) :=
  exec_buffer i hf hg hd hb hB hr

end Widths

/-- A command outside its domain raises DOMAIN (R344). -/
theorem exec_domain (i : Instr) {s : State} (hf : s.fault = false)
    (hg : capSubset (instrGate s.cfg i) s.cfg.hwcap = true)
    (hd : instrDomain s.len.toNat i = false) : exec i s = .next (faultedWith i.opc 3 s) := by
  rw [exec_eq_issue, issue_domain hf hg hd]
  rfl

/-- A command whose gate is not within HWCAP raises MISCONFIG (R342). -/
theorem exec_misconfig (i : Instr) {s : State} (hf : s.fault = false)
    (hg : capSubset (instrGate s.cfg i) s.cfg.hwcap = false) :
    exec i s = .next (faultedWith i.opc 2 s) := by
  rw [exec_eq_issue, issue_misconfig hf hg]
  rfl

end Sys2Proof.Laws
end

