-- ==== Sys2Proof/Laws/Cases.lean ====
section
/-! SUPPORT. Everything a command, a command word and a step can do when they answer a next state
(30_encoding.md rules R86, R88): the inversions a proof of an invariant cites. -/

namespace Sys2Proof.Laws

open Sys2Proof.Machine

/-- A command found in the opcode table is found at its own OPC. -/
theorem lookupOpc_opc {o : Byte} {i : Instr} (h : lookupOpc o = some i) : i.opc = o := by
  have hall : ∀ o : Byte, (lookupOpc o).all (fun i => i.opc == o) = true := by decide +kernel
  have ho := hall o
  rw [h] at ho
  simpa using ho

/-- The OPC of a decoded command is the word's OPC field (R80). -/
theorem decode_opc {v : U64} {i : Instr} (h : decode v = .ok i) : i.opc = opcField v := by
  unfold decode at h
  split at h
  · split at h
    · rename_i j hj
      obtain rfl : j = i := by simpa using h
      exact lookupOpc_opc hj
    · cases h
  · cases h

/-- A command that answers a next state was ignored, faulted or completed. -/
theorem exec_next_cases {i : Instr} {s t : State} (h : exec i s = .next t) :
    (s.fault = true ∧ t = s)
    ∨ (s.fault = false ∧ ∃ c : BitVec 4, (c = 2 ∨ c = 3) ∧ t = faultedWith i.opc c s)
    ∨ (s.fault = false ∧ ∃ r, t = complete r (startIssue i.opc s)) := by
  rw [exec_eq_issue] at h
  rcases issue_next_cases h with ⟨hf, rfl⟩ | ⟨hf, -, rfl⟩ | ⟨hf, -, -, rfl⟩
    | ⟨hf, -, -, B, r, -, -, rfl⟩
  · exact .inl ⟨hf, rfl⟩
  · exact .inr (.inl ⟨hf, 2, .inl rfl, rfl⟩)
  · exact .inr (.inl ⟨hf, 3, .inr rfl, rfl⟩)
  · exact .inr (.inr ⟨hf, r, rfl⟩)

/-- A CMD write that answers a next state was ignored, faulted or completed, with LAST_OPC the OPC
field of the word. -/
theorem issueWord_next_cases {v : U64} {s t : State} (h : issueWord v s = .next t) :
    (s.fault = true ∧ t = s)
    ∨ (s.fault = false ∧ ∃ c : BitVec 4, (c = 1 ∨ c = 2 ∨ c = 3) ∧ t = faultedWith (opcField v) c s)
    ∨ (s.fault = false ∧ ∃ r, t = complete r (startIssue (opcField v) s)) := by
  unfold issueWord at h
  split at h
  · exact .inl ⟨‹_›, (Host.Outcome.next.inj h).symm⟩
  · rename_i hf
    split at h
    · rename_i i hi
      rw [← decode_opc hi]
      rcases exec_next_cases h with h | ⟨hf, c, hc, rfl⟩ | h
      · exact .inl h
      · exact .inr (.inl ⟨hf, c, .inr hc, rfl⟩)
      · exact .inr (.inr h)
    · obtain rfl := Host.Outcome.next.inj h
      exact .inr (.inl ⟨by simpa using hf, 1, .inl rfl, rfl⟩)

/-- A step that answers a next state is an instance's, and did nothing, issued a command word, wrote
another register, loaded one, waited, stored a byte of input memory, or reset the engine. -/
theorem step_next_cases {s t : State} (h : step s = .next t) :
    configAdmitted s.cfg = true
    ∧ ((s.pending = [] ∧ t = s)
      ∨ ∃ rest,
        (∃ v, HostStores s .cmd v rest ∧ issueWord v { s with pending := rest } = .next t)
        ∨ (∃ r v, r ≠ .cmd ∧ HostStores s r v rest ∧ t = writeReg r v { s with pending := rest })
        ∨ (∃ r, HostLoads s r rest ∧ t = loadReg r { s with pending := rest })
        ∨ (s.pending = .wait :: rest
            ∧ ((s.done = false ∧ s.fault = false ∧ t = s)
              ∨ ((s.done = true ∨ s.fault = true) ∧ t = { s with pending := rest })))
        ∨ (∃ a b, s.pending = .memStore a b :: rest
            ∧ t = { s with pending := rest, mem := Memory.store s.mem a.toNat b })
        ∨ (s.pending = .reset :: rest ∧ t = resetEngine { s with pending := rest })) := by
  unfold step at h
  split at h
  · rename_i hc
    refine ⟨hc, ?_⟩
    unfold hostStep at h
    split at h
    · exact .inl ⟨‹_›, (Host.Outcome.next.inj h).symm⟩
    · rename_i a rest hp
      refine .inr ⟨rest, ?_⟩
      unfold hostAction at h
      split at h
      · split at h
        · rename_i r hr
          obtain ⟨rfl, rfl⟩ := windowReg_some hr
          unfold storeReg at h
          split at h
          · subst_vars
            exact .inl ⟨_, ⟨hc, hp⟩, h⟩
          · exact .inr (.inl ⟨r, _, ‹_›, ⟨hc, hp⟩, (Host.Outcome.next.inj h).symm⟩)
        · cases h
      · split at h
        · rename_i r hr
          obtain ⟨rfl, rfl⟩ := windowReg_some hr
          exact .inr (.inr (.inl ⟨r, ⟨hc, hp⟩, (Host.Outcome.next.inj h).symm⟩))
        · cases h
      · refine .inr (.inr (.inr (.inl ⟨hp, ?_⟩)))
        split at h
        · rename_i hw
          exact .inr ⟨by simpa using hw, (Host.Outcome.next.inj h).symm⟩
        · rename_i hw
          have hw : s.done = false ∧ s.fault = false := by simpa using hw
          refine .inl ⟨hw.1, hw.2, ?_⟩
          rw [← Host.Outcome.next.inj h]
          cases s
          simp_all
      · exact .inr (.inr (.inr (.inr (.inl ⟨_, _, hp, (Host.Outcome.next.inj h).symm⟩))))
      · exact .inr (.inr (.inr (.inr (.inr ⟨hp, (Host.Outcome.next.inj h).symm⟩))))
  · cases h

end Sys2Proof.Laws
end

