-- ==== Sys2Proof/Laws/Gates.lean ====
section
/-! SUPPORT. The conditions of a claim are the checks of the issue step (60_exceptions.md rules R342
and R344), and what a claim says a command reads is R84's reads column. -/

namespace Sys2Proof.Laws

open Sys2Proof.Machine

/-- The gate condition of a claim is the gate check of the issue step. -/
theorem gateHeld_iff (c : CoreConfig) (i : Instr) :
    gateHeld c i ↔ capSubset (instrGate c i) c.hwcap = true := by
  cases i
  case hash32 =>
    cases h : c.sel32 <;>
    simp [gateHeld, instrGate, capSubset, sel32Gate, noGate, teGate, suGate, saGate, h, and_assoc]
  case hash32s =>
    cases h : c.sel32 <;>
    simp [gateHeld, instrGate, capSubset, sel32Gate, noGate, teGate, suGate, saGate, h, and_assoc]
  case hash64 =>
    cases h : c.sel64 <;>
    simp [gateHeld, instrGate, capSubset, sel64Gate, noGate, teGate, h]
  case hash64s =>
    cases h : c.sel64s <;>
    simp [gateHeld, instrGate, capSubset, sel64sGate, noGate, teGate, h]
  case hash64ss =>
    cases h : c.sel64s <;>
    simp [gateHeld, instrGate, capSubset, sel64sGate, noGate, teGate, h]
  all_goals simp [gateHeld, instrGate, capSubset, noGate, teGate, suGate, saGate, and_assoc]

/-- The LEN condition of a claim is the domain check of the issue step, for a LEN that fits its
register. -/
theorem lenHeld_iff {n : Nat} (hn : n < 2 ^ 64) (i : Instr) :
    lenHeld n i ↔ instrDomain n i = true := by
  cases i <;> simp [lenHeld, kernelDomain, instrDomain] <;> omega

/-- The commands that read no buffer are those R84's reads column gives none. -/
theorem registerOnly_iff (i : Instr) : i ∈ registerOnly ↔ (instrReads i).buffer = false := by
  cases i <;> decide

/-- The registers a claim says a command reads are those of R84's reads column. -/
theorem commandReads_iff (i : Instr) (r : OperandReg) :
    commandReads i r ↔
      (match r with
        | .src => (instrReads i).buffer
        | .len => (instrReads i).buffer
        | .x0 => (instrReads i).x0
        | .x1 => (instrReads i).x1
        | .x2 => (instrReads i).x2
        | .x3 => (instrReads i).x3
        | .x4 => (instrReads i).x4
        | .x5 => (instrReads i).x5) = true := by
  cases r <;> simp only [commandReads] <;> cases i <;> decide

end Sys2Proof.Laws
end

