-- ==== Sys2Proof/Laws/Loops.lean ====
section
/-! SUPPORT. The long paths' loops as folds: a loop whose pass number `j` reads at offset `off j`, and
has the value `f s j` there, is the fold of `f` over the pass numbers (42_family_na_uo_xo.md rules R171
and R181; 44_family_mk.md rule R243; 46_family_cc.md rules R283, R285 and R286). -/

namespace Sys2Proof.Laws

open Sys2Proof.Machine

/-- A loop that runs `step` at the offsets `off 0`, `off 1`, ... is a fold over the pass numbers. -/
theorem loop_foldl {σ : Type} {loop : Nat → Nat → σ → Option σ} {step : Nat → σ → Option σ}
    {next : Nat → Nat} (h0 : ∀ p s, loop 0 p s = some s)
    (h1 : ∀ k p s, loop (k + 1) p s = (step p s).bind (loop k (next p))) {k : Nat} {off : Nat → Nat}
    (hoff : ∀ j < k, off (j + 1) = next (off j)) {f : σ → Nat → σ}
    (hf : ∀ j < k, ∀ s, step (off j) s = some (f s j)) (s : σ) :
    loop k (off 0) s = some ((List.range k).foldl f s) := by
  induction k generalizing off f s with
  | zero => exact h0 _ s
  | succ k ih =>
    rw [h1, hf 0 (by omega), Option.bind_some, ← hoff 0 (by omega),
      ih (off := fun j => off (j + 1)) (f := fun s j => f s (j + 1))
        (fun j hj => hoff (j + 1) (by omega)) (fun j hj => hf (j + 1) (by omega)),
      List.range_succ_eq_map, List.foldl_cons, List.foldl_map]

variable {B : Bytes} {k : Nat}

/-- NA's blocks, and those of CC's 128-bit loop (R171, R286). -/
theorem naBlocks_foldl {f : NaAcc → Nat → NaAcc}
    (hf : ∀ j < k, ∀ s, naBlock B (64 * j) s = some (f s j)) (s : NaAcc) :
    naBlocks B k 0 s = some ((List.range k).foldl f s) :=
  loop_foldl (fun _ _ => rfl) (fun _ _ _ => rfl) (off := (64 * ·)) (fun _ _ => rfl) hf s

/-- UO's blocks (R181). -/
theorem uoBlocks_foldl {mul : U64} {f : UoAcc → Nat → UoAcc}
    (hf : ∀ j < k, ∀ s, uoBlock B mul (64 * j) s = some (f s j)) (s : UoAcc) :
    uoBlocks B mul k 0 s = some ((List.range k).foldl f s) :=
  loop_foldl (fun _ _ => rfl) (fun _ _ _ => rfl) (off := (64 * ·)) (fun _ _ => rfl) hf s

/-- MK's blocks (R243). -/
theorem mkBlocks_foldl {f : Acc32 → Nat → Acc32}
    (hf : ∀ j < k, ∀ s, mkBlock B (20 * j) s = some (f s j)) (s : Acc32) :
    mkBlocks B k 0 s = some ((List.range k).foldl f s) :=
  loop_foldl (fun _ _ => rfl) (fun _ _ _ => rfl) (off := (20 * ·)) (fun _ _ => rfl) hf s

/-- CC's 32-bit blocks (R283). -/
theorem ccBlocks_foldl {f : Acc32 → Nat → Acc32}
    (hf : ∀ j < k, ∀ s, ccBlock B (20 * j) s = some (f s j)) (s : Acc32) :
    ccBlocks B k 0 s = some ((List.range k).foldl f s) :=
  loop_foldl (fun _ _ => rfl) (fun _ _ _ => rfl) (off := (20 * ·)) (fun _ _ => rfl) hf s

/-- CityMurmur's steps (R285). -/
theorem citySteps_foldl {f : CityAcc → Nat → CityAcc}
    (hf : ∀ j < k, ∀ s, cityStep B (16 * j) s = some (f s j)) (s : CityAcc) :
    citySteps B k 0 s = some ((List.range k).foldl f s) :=
  loop_foldl (fun _ _ => rfl) (fun _ _ _ => rfl) (off := (16 * ·)) (fun _ _ => rfl) hf s

/-- The tail chunks of CC's 128-bit hash, each 32 bytes below the one before (R286). -/
theorem city128Chunks_foldl {e : Nat} {f : NaAcc → Nat → NaAcc}
    (hf : ∀ j < k, ∀ s, city128Chunk B (e - 32 * (j + 1)) s = some (f s j)) (s : NaAcc) :
    city128Chunks B k e s = some ((List.range k).foldl f s) := by
  have h1 : ∀ k p s, city128Chunks B (k + 1) p s
      = (city128Chunk B (p - 32) s).bind (city128Chunks B k (p - 32)) := fun _ _ _ => rfl
  refine loop_foldl (step := fun p => city128Chunk B (p - 32)) (fun _ _ => rfl) h1
    (off := (e - 32 * ·)) (fun j _ => by omega) (fun j hj s => ?_) s
  rw [← hf j hj s]
  simp only [Nat.mul_succ, Nat.sub_sub]

/-! The long paths, with their loops as folds -/

/-- NA's long path: start, blocks, tail (R171). -/
theorem naLong64_foldl (h : 64 < B.length) {f : NaAcc → Nat → NaAcc}
    (hf : ∀ j < (B.length - 1) / 64, ∀ s, naBlock B (64 * j) s = some (f s j)) :
    naLong64 B
      = naTail B ((List.range ((B.length - 1) / 64)).foldl f (naStart (le64 B 0))) := by
  simp [naLong64, fetch64_inside (B := B) (i := 0) (by omega), naBlocks_foldl hf]

/-- UO's long path: start, blocks, tail (R181). -/
theorem uoHash64WithSeeds_foldl (h : 64 < B.length) (s0 s1 : U64) {f : UoAcc → Nat → UoAcc}
    (hf : ∀ j < (B.length - 1) / 64, ∀ s,
      uoBlock B (uoStart s0 s1).2 (64 * j) s = some (f s j)) :
    uoHash64WithSeeds B s0 s1 = uoTail B (uoStart s0 s1).2
      ((List.range ((B.length - 1) / 64)).foldl f (uoStart s0 s1).1) := by
  simp [uoHash64WithSeeds, uoLong64, uoBlocks_foldl hf, show ¬ B.length ≤ 64 by omega]

/-- MK's long path: tail words, blocks, last fold (R243). -/
theorem mkLong32_foldl {a : Acc32} (ha : longStart32 B = some a) {f : Acc32 → Nat → Acc32}
    (hf : ∀ j < (B.length - 1) / 20, ∀ s, mkBlock B (20 * j) s = some (f s j)) :
    mkLong32 B = some (longEnd32 ((List.range ((B.length - 1) / 20)).foldl f
      { a with f := rotate32 a.f 19 + 113 })) := by
  simp [mkLong32, ha, mkBlocks_foldl hf]

/-- CC's 32-bit long path: tail words, blocks, last fold (R283). -/
theorem ccLong32_foldl {a : Acc32} (ha : longStart32 B = some a) {f : Acc32 → Nat → Acc32}
    (hf : ∀ j < (B.length - 1) / 20, ∀ s, ccBlock B (20 * j) s = some (f s j)) :
    ccLong32 B = some (longEnd32 ((List.range ((B.length - 1) / 20)).foldl f
      { a with f := rotate32 a.f 19 * 5 + murAdd })) := by
  simp [ccLong32, ha, ccBlocks_foldl hf]

/-- CityMurmur's branch above 16 bytes: start and steps (R285). -/
theorem cityLong_foldl (h : 16 < B.length) (lo hi : U64) {f : CityAcc → Nat → CityAcc}
    (hf : ∀ j < (B.length - 1) / 16, ∀ s, cityStep B (16 * j) s = some (f s j)) :
    cityLong B lo hi =
      let c := hashLen16 (le64 B (B.length - 8) + k1) lo
      let d := hashLen16 (hi + nat64 B.length) (c + le64 B (B.length - 16))
      some ((List.range ((B.length - 1) / 16)).foldl f
        { a := lo + d, b := hi, c := c, d := d }) := by
  simp [cityLong, fetch64_inside (B := B) (i := B.length - 8) (by omega),
    fetch64_inside (B := B) (i := B.length - 16) (by omega), citySteps_foldl hf]

/-- CC's 128-bit long path: start, pairs of blocks, tail chunks, last folds (R286). -/
theorem city128Long_foldl {lo hi : U64} {a : NaAcc} (ha : city128Start B lo hi = some a)
    {f g : NaAcc → Nat → NaAcc}
    (hf : ∀ j < 2 * (B.length / 128), ∀ s, naBlock B (64 * j) s = some (f s j))
    (hg : ∀ j < (B.length % 128 + 31) / 32, ∀ s,
      city128Chunk B (B.length - 32 * (j + 1)) s = some (g s j)) :
    city128Long B lo hi = some (city128End ((List.range ((B.length % 128 + 31) / 32)).foldl g
      (city128Mid ((List.range (2 * (B.length / 128))).foldl f a)))) := by
  simp [city128Long, ha, naBlocks_foldl hf, city128Chunks_foldl hg]

end Sys2Proof.Laws
end

