-- ==== Sys2Proof/Laws/PerInstr.lean ====
section
/-! SUPPORT. The statement made once for every command: its encoding is a legal command word
(30_encoding.md rules R80 and R85). -/

namespace Sys2Proof.Laws

/-- The encoding of `i` has RSV 0, its OPC field is the OPC of `i`, and that OPC is none of the
reserved values R85 lists. -/
def LegalEncoding.Statement (i : Instr) : Prop :=
  rsvField (encode i) = 0 ∧ opcField (encode i) = i.opc ∧ reservedOpc i.opc = false

theorem LegalEncoding.nop : LegalEncoding.Statement .nop := by
  unfold LegalEncoding.Statement; decide
theorem LegalEncoding.fetch32 : LegalEncoding.Statement .fetch32 := by
  unfold LegalEncoding.Statement; decide
theorem LegalEncoding.fetch64 : LegalEncoding.Statement .fetch64 := by
  unfold LegalEncoding.Statement; decide
theorem LegalEncoding.rot32 : LegalEncoding.Statement .rot32 := by
  unfold LegalEncoding.Statement; decide
theorem LegalEncoding.rot64 : LegalEncoding.Statement .rot64 := by
  unfold LegalEncoding.Statement; decide
theorem LegalEncoding.bswap32 : LegalEncoding.Statement .bswap32 := by
  unfold LegalEncoding.Statement; decide
theorem LegalEncoding.bswap64 : LegalEncoding.Statement .bswap64 := by
  unfold LegalEncoding.Statement; decide
theorem LegalEncoding.fmix : LegalEncoding.Statement .fmix := by
  unfold LegalEncoding.Statement; decide
theorem LegalEncoding.mur : LegalEncoding.Statement .mur := by
  unfold LegalEncoding.Statement; decide
theorem LegalEncoding.shiftmix : LegalEncoding.Statement .shiftmix := by
  unfold LegalEncoding.Statement; decide
theorem LegalEncoding.hl16 : LegalEncoding.Statement .hl16 := by
  unfold LegalEncoding.Statement; decide
theorem LegalEncoding.hl16m : LegalEncoding.Statement .hl16m := by
  unfold LegalEncoding.Statement; decide
theorem LegalEncoding.tweak32 : LegalEncoding.Statement .tweak32 := by
  unfold LegalEncoding.Statement; decide
theorem LegalEncoding.tweak64 : LegalEncoding.Statement .tweak64 := by
  unfold LegalEncoding.Statement; decide
theorem LegalEncoding.tweak128 : LegalEncoding.Statement .tweak128 := by
  unfold LegalEncoding.Statement; decide
theorem LegalEncoding.naLen0to16 : LegalEncoding.Statement .naLen0to16 := by
  unfold LegalEncoding.Statement; decide
theorem LegalEncoding.naLen17to32 : LegalEncoding.Statement .naLen17to32 := by
  unfold LegalEncoding.Statement; decide
theorem LegalEncoding.naLen33to64 : LegalEncoding.Statement .naLen33to64 := by
  unfold LegalEncoding.Statement; decide
theorem LegalEncoding.weak32 : LegalEncoding.Statement .weak32 := by
  unfold LegalEncoding.Statement; decide
theorem LegalEncoding.weak32m : LegalEncoding.Statement .weak32m := by
  unfold LegalEncoding.Statement; decide
theorem LegalEncoding.xoH32 : LegalEncoding.Statement .xoH32 := by
  unfold LegalEncoding.Statement; decide
theorem LegalEncoding.xoLen33to64 : LegalEncoding.Statement .xoLen33to64 := by
  unfold LegalEncoding.Statement; decide
theorem LegalEncoding.xoLen65to96 : LegalEncoding.Statement .xoLen65to96 := by
  unfold LegalEncoding.Statement; decide
theorem LegalEncoding.uoH : LegalEncoding.Statement .uoH := by
  unfold LegalEncoding.Statement; decide
theorem LegalEncoding.mkLen0to4 : LegalEncoding.Statement .mkLen0to4 := by
  unfold LegalEncoding.Statement; decide
theorem LegalEncoding.mkLen5to12 : LegalEncoding.Statement .mkLen5to12 := by
  unfold LegalEncoding.Statement; decide
theorem LegalEncoding.mkLen13to24 : LegalEncoding.Statement .mkLen13to24 := by
  unfold LegalEncoding.Statement; decide
theorem LegalEncoding.ccLen0to4 : LegalEncoding.Statement .ccLen0to4 := by
  unfold LegalEncoding.Statement; decide
theorem LegalEncoding.ccLen5to12 : LegalEncoding.Statement .ccLen5to12 := by
  unfold LegalEncoding.Statement; decide
theorem LegalEncoding.ccLen13to24 : LegalEncoding.Statement .ccLen13to24 := by
  unfold LegalEncoding.Statement; decide
theorem LegalEncoding.ccCitymurmur : LegalEncoding.Statement .ccCitymurmur := by
  unfold LegalEncoding.Statement; decide
theorem LegalEncoding.naH64 : LegalEncoding.Statement .naH64 := by
  unfold LegalEncoding.Statement; decide
theorem LegalEncoding.naH64s : LegalEncoding.Statement .naH64s := by
  unfold LegalEncoding.Statement; decide
theorem LegalEncoding.naH64ss : LegalEncoding.Statement .naH64ss := by
  unfold LegalEncoding.Statement; decide
theorem LegalEncoding.uoH64 : LegalEncoding.Statement .uoH64 := by
  unfold LegalEncoding.Statement; decide
theorem LegalEncoding.uoH64s : LegalEncoding.Statement .uoH64s := by
  unfold LegalEncoding.Statement; decide
theorem LegalEncoding.uoH64ss : LegalEncoding.Statement .uoH64ss := by
  unfold LegalEncoding.Statement; decide
theorem LegalEncoding.xoH64 : LegalEncoding.Statement .xoH64 := by
  unfold LegalEncoding.Statement; decide
theorem LegalEncoding.xoH64s : LegalEncoding.Statement .xoH64s := by
  unfold LegalEncoding.Statement; decide
theorem LegalEncoding.xoH64ss : LegalEncoding.Statement .xoH64ss := by
  unfold LegalEncoding.Statement; decide
theorem LegalEncoding.teH64 : LegalEncoding.Statement .teH64 := by
  unfold LegalEncoding.Statement; decide
theorem LegalEncoding.teH64s : LegalEncoding.Statement .teH64s := by
  unfold LegalEncoding.Statement; decide
theorem LegalEncoding.teH64ss : LegalEncoding.Statement .teH64ss := by
  unfold LegalEncoding.Statement; decide
theorem LegalEncoding.ntH32 : LegalEncoding.Statement .ntH32 := by
  unfold LegalEncoding.Statement; decide
theorem LegalEncoding.ntH32s : LegalEncoding.Statement .ntH32s := by
  unfold LegalEncoding.Statement; decide
theorem LegalEncoding.mkH32 : LegalEncoding.Statement .mkH32 := by
  unfold LegalEncoding.Statement; decide
theorem LegalEncoding.mkH32s : LegalEncoding.Statement .mkH32s := by
  unfold LegalEncoding.Statement; decide
theorem LegalEncoding.suH32 : LegalEncoding.Statement .suH32 := by
  unfold LegalEncoding.Statement; decide
theorem LegalEncoding.suH32s : LegalEncoding.Statement .suH32s := by
  unfold LegalEncoding.Statement; decide
theorem LegalEncoding.saH32 : LegalEncoding.Statement .saH32 := by
  unfold LegalEncoding.Statement; decide
theorem LegalEncoding.saH32s : LegalEncoding.Statement .saH32s := by
  unfold LegalEncoding.Statement; decide
theorem LegalEncoding.ccH32 : LegalEncoding.Statement .ccH32 := by
  unfold LegalEncoding.Statement; decide
theorem LegalEncoding.ccH32s : LegalEncoding.Statement .ccH32s := by
  unfold LegalEncoding.Statement; decide
theorem LegalEncoding.ccH128 : LegalEncoding.Statement .ccH128 := by
  unfold LegalEncoding.Statement; decide
theorem LegalEncoding.ccH128s : LegalEncoding.Statement .ccH128s := by
  unfold LegalEncoding.Statement; decide
theorem LegalEncoding.hash32 : LegalEncoding.Statement .hash32 := by
  unfold LegalEncoding.Statement; decide
theorem LegalEncoding.hash32s : LegalEncoding.Statement .hash32s := by
  unfold LegalEncoding.Statement; decide
theorem LegalEncoding.hash64 : LegalEncoding.Statement .hash64 := by
  unfold LegalEncoding.Statement; decide
theorem LegalEncoding.hash64s : LegalEncoding.Statement .hash64s := by
  unfold LegalEncoding.Statement; decide
theorem LegalEncoding.hash64ss : LegalEncoding.Statement .hash64ss := by
  unfold LegalEncoding.Statement; decide
theorem LegalEncoding.hash128 : LegalEncoding.Statement .hash128 := by
  unfold LegalEncoding.Statement; decide
theorem LegalEncoding.hash128s : LegalEncoding.Statement .hash128s := by
  unfold LegalEncoding.Statement; decide
theorem LegalEncoding.fp32 : LegalEncoding.Statement .fp32 := by
  unfold LegalEncoding.Statement; decide
theorem LegalEncoding.fp64 : LegalEncoding.Statement .fp64 := by
  unfold LegalEncoding.Statement; decide
theorem LegalEncoding.fp128 : LegalEncoding.Statement .fp128 := by
  unfold LegalEncoding.Statement; decide

end Sys2Proof.Laws
end

