-- ==== Sys2Proof/Machine/HostAsm.lean ====
section
/-! DEFINITION. Host assembly (30_encoding.md rules R88 and R89): a line's encoding is the host
access it performs, and a pseudo-instruction expands to lines. -/

namespace Sys2Proof.Machine

/-- The accesses a line performs, for a window at `base` (R88). DATA performs none. -/
def lineActions (base : Nat) : Line → List HostAction
  | .set r imm => [.store (base + regOffset (operandReg r)) 8 imm]
  | .cmd i => [.store (base + regOffset .cmd) 8 (encode i)]
  | .cmdw imm => [.store (base + regOffset .cmd) 8 imm]
  | .get r => [.load (base + regOffset r) 8]
  | .wait => [.wait]
  | .data _ _ => []

/-- The lines a pseudo-instruction expands to, in order (R89). -/
def expandPseudo : Pseudo → List Line
  | .buf a n => [.set .src a, .set .len n]
  | .seed s => [.set .x0 s]
  | .seeds s0 s1 => [.set .x0 s0, .set .x1 s1]
  | .seed128 lo hi => [.set .x0 lo, .set .x1 hi]
  | .run m => [.cmd m, .wait]
  | .hashof m a n => [.set .src a, .set .len n, .cmd m, .wait, .get .r0, .get .r1]

/-- The accesses of a host program, in order. -/
def programActions (base : Nat) (p : List Line) : List HostAction := p.flatMap (lineActions base)

/-- A line's part of the memory image: DATA's bytes (R88), over what the image held at their
addresses (DESIGN CHOICE; notes/assumptions/20.md). -/
def lineImage (m : Memory) : Line → Memory
  | .data addr bytes => Memory.writeBytes m addr bytes
  | .set _ _ => m
  | .cmd _ => m
  | .cmdw _ => m
  | .get _ => m
  | .wait => m

/-- The memory image of a host program: its DATA lines, placed before it runs (R88). Where the bytes of
two DATA lines overlap R88 does not say which stand: the later line's do (DESIGN CHOICE, unsafe for such
a program; notes/assumptions/20.md). -/
def programImage (m : Memory) (p : List Line) : Memory := p.foldl lineImage m

/-- A state in which a host program is about to run: its image is in memory and its accesses are
pending. -/
def withProgram (p : List Line) (s : State) : State :=
  { s with mem := programImage s.mem p, pending := programActions s.cfg.regBase p }

end Sys2Proof.Machine
end

