-- ==== Sys2Proof/WellFormed.lean ====
section
/-! DEFINITION. Which terms the machine gives a meaning. A command has no operand field, so every
`Instr` is well formed (30_encoding.md rule R81); the checks are on host accesses, on memory images
and on configurations. -/

namespace Sys2Proof

/-- Every command is well formed: no constructor has an argument (R81). -/
def Instr.wellFormed (_ : Instr) : Bool := true

/-- A host access the core gives a meaning: an aligned 64-bit access to the window (R41). A wait, a
store to input memory and a reset carry no address of the window. -/
def Machine.HostAction.wellFormed (base : Nat) : Machine.HostAction → Bool
  | .store addr bytes _ => (Machine.windowReg base addr bytes).isSome
  | .load addr bytes => (Machine.windowReg base addr bytes).isSome
  | .wait => true
  | .memStore _ _ => true
  | .reset => true

/-- A line of host assembly: a DATA image lies inside the 2^64-byte input space
(20_memory.md rule R60). -/
def Machine.Line.wellFormed : Machine.Line → Bool
  | .data addr bytes => decide (addr + bytes.length ≤ 2 ^ 64)
  | .set _ _ => true
  | .cmd i => i.wellFormed
  | .cmdw _ => true
  | .get _ => true
  | .wait => true

/-- A configuration that is an instance of the core (47_dispatch_api.md rule R310). -/
def CoreConfig.wellFormed (c : CoreConfig) : Bool := Machine.configAdmitted c

end Sys2Proof
end

