-- ==== Sys2Proof/Tests/Slice0.lean ====
section
/-! SUPPORT. Tests: the smoke test of WellFormed, the decoding of every command from its word, one
vector of the spec for every command, its faults and host accesses, and a witness for every
statement of Certificates/Slice0/Obligations.lean that has hypotheses. Expected values are
95_test_vectors.md's, the section named in each docstring. -/

namespace Sys2Proof.Tests

open Sys2Proof Sys2Proof.Machine Sys2Proof.Laws

set_option Elab.async false

/-! ## WellFormed -/

/-- R41: a store of 4 bytes, a misaligned one, one below and one above the window are ill formed. -/
theorem test_illFormed_store :
    (HostAction.store 0x1000 4 7).wellFormed 0x1000 = false
    ∧ (HostAction.store 0x1004 8 7).wellFormed 0x1000 = false
    ∧ (HostAction.store 0xFF8 8 7).wellFormed 0x1000 = false
    ∧ (HostAction.store 0x1100 8 7).wellFormed 0x1000 = false
    ∧ (HostAction.store 0x10F8 8 7).wellFormed 0x1000 = true := by decide

/-- R41: the same of a load. -/
theorem test_illFormed_load :
    (HostAction.load 0x1058 4).wellFormed 0x1000 = false
    ∧ (HostAction.load 0x1059 8).wellFormed 0x1000 = false
    ∧ (HostAction.load 0x58 8).wellFormed 0x1000 = false
    ∧ (HostAction.load 0x1058 8).wellFormed 0x1000 = true := by decide

/-- R60: a DATA image may end at the top of the address space and not past it. -/
theorem test_illFormed_data :
    (Line.data (2 ^ 64 - 1) [1, 2]).wellFormed = false
    ∧ (Line.data (2 ^ 64 - 1) [1]).wellFormed = true := by decide

/-- R310: a selector that names a family outside CLAIMCAP, one selector at a time. -/
theorem test_illFormed_config :
    ({ configAtReset with sel32 := .nt }).wellFormed = false
    ∧ ({ configAtReset with sel32 := .su }).wellFormed = false
    ∧ ({ configAtReset with sel32 := .sa }).wellFormed = false
    ∧ ({ configAtReset with sel64 := .te }).wellFormed = false
    ∧ ({ configAtReset with sel64s := .te }).wellFormed = false
    ∧ configAtReset.wellFormed = true := by decide

/-- A configuration that is not an instance is refused by the step. -/
theorem test_illFormed_config_refused :
    step { State.reset with cfg := { configAtReset with sel32 := .nt } } = .refused .notAnInstance :=
  rfl

/-! ## Decoding, each word written out from R84's table -/

/-- R84: the words of the primitives. -/
theorem test_decode_primitives :
    decode 0x0000000000000000 = .ok .nop
    ∧ decode 0x0000000000000001 = .ok .fetch32
    ∧ decode 0x0000000000000002 = .ok .fetch64
    ∧ decode 0x0000000000000003 = .ok .rot32
    ∧ decode 0x0000000000000004 = .ok .rot64
    ∧ decode 0x0000000000000005 = .ok .bswap32
    ∧ decode 0x0000000000000006 = .ok .bswap64
    ∧ decode 0x0000000000000007 = .ok .fmix
    ∧ decode 0x0000000000000008 = .ok .mur
    ∧ decode 0x0000000000000009 = .ok .shiftmix
    ∧ decode 0x000000000000000A = .ok .hl16
    ∧ decode 0x000000000000000B = .ok .hl16m
    ∧ decode 0x000000000000000C = .ok .tweak32
    ∧ decode 0x000000000000000D = .ok .tweak64
    ∧ decode 0x000000000000000E = .ok .tweak128 := by decide

/-- R84: the words of the kernels. -/
theorem test_decode_kernels :
    decode 0x0000000000000010 = .ok .naLen0to16
    ∧ decode 0x0000000000000011 = .ok .naLen17to32
    ∧ decode 0x0000000000000012 = .ok .naLen33to64
    ∧ decode 0x0000000000000013 = .ok .weak32
    ∧ decode 0x0000000000000014 = .ok .weak32m
    ∧ decode 0x0000000000000018 = .ok .xoH32
    ∧ decode 0x0000000000000019 = .ok .xoLen33to64
    ∧ decode 0x000000000000001A = .ok .xoLen65to96
    ∧ decode 0x000000000000001C = .ok .uoH
    ∧ decode 0x0000000000000020 = .ok .mkLen0to4
    ∧ decode 0x0000000000000021 = .ok .mkLen5to12
    ∧ decode 0x0000000000000022 = .ok .mkLen13to24
    ∧ decode 0x0000000000000024 = .ok .ccLen0to4
    ∧ decode 0x0000000000000025 = .ok .ccLen5to12
    ∧ decode 0x0000000000000026 = .ok .ccLen13to24
    ∧ decode 0x0000000000000027 = .ok .ccCitymurmur := by decide

/-- R84: the words of the families. -/
theorem test_decode_families :
    decode 0x0000000000000040 = .ok .naH64
    ∧ decode 0x0000000000000041 = .ok .naH64s
    ∧ decode 0x0000000000000042 = .ok .naH64ss
    ∧ decode 0x0000000000000044 = .ok .uoH64
    ∧ decode 0x0000000000000045 = .ok .uoH64s
    ∧ decode 0x0000000000000046 = .ok .uoH64ss
    ∧ decode 0x0000000000000048 = .ok .xoH64
    ∧ decode 0x0000000000000049 = .ok .xoH64s
    ∧ decode 0x000000000000004A = .ok .xoH64ss
    ∧ decode 0x000000000000004C = .ok .teH64
    ∧ decode 0x000000000000004D = .ok .teH64s
    ∧ decode 0x000000000000004E = .ok .teH64ss
    ∧ decode 0x0000000000000050 = .ok .ntH32
    ∧ decode 0x0000000000000051 = .ok .ntH32s
    ∧ decode 0x0000000000000054 = .ok .mkH32
    ∧ decode 0x0000000000000055 = .ok .mkH32s
    ∧ decode 0x0000000000000058 = .ok .suH32
    ∧ decode 0x0000000000000059 = .ok .suH32s
    ∧ decode 0x000000000000005C = .ok .saH32
    ∧ decode 0x000000000000005D = .ok .saH32s
    ∧ decode 0x0000000000000060 = .ok .ccH32
    ∧ decode 0x0000000000000061 = .ok .ccH32s
    ∧ decode 0x0000000000000062 = .ok .ccH128
    ∧ decode 0x0000000000000063 = .ok .ccH128s := by decide

/-- R84: the words of the public API. -/
theorem test_decode_api :
    decode 0x0000000000000080 = .ok .hash32
    ∧ decode 0x0000000000000081 = .ok .hash32s
    ∧ decode 0x0000000000000084 = .ok .hash64
    ∧ decode 0x0000000000000085 = .ok .hash64s
    ∧ decode 0x0000000000000086 = .ok .hash64ss
    ∧ decode 0x0000000000000088 = .ok .hash128
    ∧ decode 0x0000000000000089 = .ok .hash128s
    ∧ decode 0x0000000000000090 = .ok .fp32
    ∧ decode 0x0000000000000091 = .ok .fp64
    ∧ decode 0x0000000000000092 = .ok .fp128 := by decide

/-- R85: the first and the last word of reserved ranges, RSV bits 8, 56 and 63, and RSV before OPC. -/
theorem test_decode_rejects :
    decode 0x0F = .error .reservedOpc ∧ decode 0x15 = .error .reservedOpc
    ∧ decode 0x17 = .error .reservedOpc ∧ decode 0x28 = .error .reservedOpc
    ∧ decode 0x3F = .error .reservedOpc ∧ decode 0x93 = .error .reservedOpc
    ∧ decode 0xFF = .error .reservedOpc ∧ decode 0x140 = .error .rsvNonzero
    ∧ decode 0x10F = .error .rsvNonzero ∧ decode 0x0100000000000000 = .error .rsvNonzero
    ∧ decode 0x8000000000000007 = .error .rsvNonzero := by decide

/-- The table's word numbering: the row's bits, and nothing above them. -/
theorem test_decodeTableWord :
    decodeTableWord 64 0x91 = some .fp64 ∧ decodeTableWord 8 0x91 = some .fp64
    ∧ decodeTableWord 64 0x191 = none ∧ decodeTableWord 64 0x23 = none := by decide

/-! ## Sample states -/

/-- No capability. -/
def noCaps : CapSet := { simd128 := false, crc32 := false, aes := false, ptr64 := false }

/-- Every capability. -/
def allCaps : CapSet := { simd128 := true, crc32 := true, aes := true, ptr64 := true }

/-- Hardware with every capability, none claimed, selectors MK, XO and XO. -/
def capable : CoreConfig := { configAtReset with hwcap := allCaps }

/-- `capable`, with DEBUG set. -/
def debugging : CoreConfig := { capable with debug := true }

/-- {SIMD128, PTR64} claimed and absent, with R310's default selectors (95_test_vectors.md P3). -/
def claimedOnly : CoreConfig :=
  { configAtReset with claimcap := teGate, sel32 := .nt, sel64 := .te, sel64s := .te }

/-- An engine whose input memory holds `B` at 0x1000, with SRC and LEN at `B`, and X0 to X5. -/
def sample (c : CoreConfig) (B : Bytes) (x0 x1 x2 x3 x4 x5 : U64) : State :=
  { State.reset with
      src := 0x1000, len := BitVec.ofNat 64 B.length, x0 := x0, x1 := x1, x2 := x2, x3 := x3,
      x4 := x4, x5 := x5, cfg := c, mem := Memory.writeBytes [] 0x1000 B,
      written := { src := true, len := true, x0 := true, x1 := true, x2 := true, x3 := true,
                   x4 := true, x5 := true, r0 := false, r1 := false } }

/-- An engine with X0 to X5 and an empty buffer. -/
def regs (x0 x1 x2 x3 x4 x5 : U64) : State := sample capable [] x0 x1 x2 x3 x4 x5

/-- An engine with the buffer `B`, and X0 and X1. -/
def onBuffer (B : Bytes) (x0 x1 : U64) : State := sample capable B x0 x1 0 0 0 0

/-- An engine with LEN `n`, SRC `a` and no memory. -/
def withLen (c : CoreConfig) (a n : U64) : State := { State.reset with cfg := c, src := a, len := n }

/-- "abc" -/
def abc : Bytes := [0x61, 0x62, 0x63]

/-- "abcde" -/
def abcde : Bytes := [0x61, 0x62, 0x63, 0x64, 0x65]

/-- R0, R1 and STATUS after a step; none where the step stops. -/
def seen (o : StepResult) : Option (U64 × U64 × U64) :=
  match o with
  | .next t => some (t.r0, t.r1, readReg .status t)
  | .fault _ => none
  | .refused _ => none

/-- What one step shows in which the host stores the command word `w` to CMD. -/
def run (w : Nat) (s : State) : Option (U64 × U64 × U64) := seen (step (s.withFetchWord 64 w))

/-! ## One vector of the spec for every command -/

/-- F10. -/
theorem test_nop : run 0x00 (regs 1 2 3 4 5 6) = some (0, 0, 0x000001) := by
  decide +kernel

/-- F0. -/
theorem test_fetch32 :
    run 0x01 (onBuffer [0x61, 0x62, 0x63, 0x64] 0 0)
      = some (0x64636261, 0, 0x010001) := by
  decide +kernel

/-- F0. -/
theorem test_fetch64 :
    run 0x02 (onBuffer [0x61, 0x62, 0x63, 0x64, 0x65, 0x66, 0x67, 0x68] 0 0)
      = some (0x6867666564636261, 0, 0x020001) := by
  decide +kernel

/-- R103, amount 33 acts as 1. -/
theorem test_rot32 : run 0x03 (regs 0x80000001 33 0 0 0 0) = some (0xC0000000, 0, 0x030001) := by
  decide +kernel

/-- R104, amount 72 acts as 8. -/
theorem test_rot64 :
    run 0x04 (regs 0x0123456789ABCDEF 72 0 0 0 0)
      = some (0xEF0123456789ABCD, 0, 0x040001) := by
  decide +kernel

/-- R105, high half ignored. -/
theorem test_bswap32 :
    run 0x05 (regs 0xAA00000011223344 0 0 0 0 0)
      = some (0x44332211, 0, 0x050001) := by
  decide +kernel

/-- R106. -/
theorem test_bswap64 :
    run 0x06 (regs 0x1122334455667788 0 0 0 0 0)
      = some (0x8877665544332211, 0, 0x060001) := by
  decide +kernel

/-- R107. -/
theorem test_fmix : run 0x07 (regs 0x12345678 0 0 0 0 0) = some (0xE37CD1BC, 0, 0x070001) := by
  decide +kernel

/-- R108. -/
theorem test_mur : run 0x08 (regs 1 2 0 0 0 0) = some (0x26D04576, 0, 0x080001) := by
  decide +kernel

/-- R109. -/
theorem test_shiftmix :
    run 0x09 (regs 0x8000000000000000 0 0 0 0 0)
      = some (0x8000000000010000, 0, 0x090001) := by
  decide +kernel

/-- R111. -/
theorem test_hl16 : run 0x0A (regs 1 2 0 0 0 0) = some (0x86668A560EC835A1, 0, 0x0A0001) := by
  decide +kernel

/-- R110. -/
theorem test_hl16m :
    run 0x0B (regs 1 2 0x9AE16A3B2F90404F 0 0 0)
      = some (0xB1BB418E84DDDA0B, 0, 0x0B0001) := by
  decide +kernel

/-- R112. -/
theorem test_tweak32 : run 0x0C (regs 0x12345678 0 0 0 0 0) = some (0x78C2D0C, 0, 0x0C0001) := by
  decide +kernel

/-- R113. -/
theorem test_tweak64 :
    run 0x0D (regs 0x9AE16A3B2F90404F 0 0 0 0 0)
      = some (0x826E8074D1FA8DEF, 0, 0x0D0001) := by
  decide +kernel

/-- R114. -/
theorem test_tweak128 :
    run 0x0E (regs 1 2 0 0 0 0)
      = some (0xA52935C3B0DD47E1, 0xA45DC9B3D10EF975, 0x0E0001) := by
  decide +kernel

/-- F1. -/
theorem test_naLen0to16 : run 0x10 (onBuffer abc 0 0) = some (0x24A5B3A074E7F369, 0, 0x100001) := by
  decide +kernel

/-- F1. -/
theorem test_naLen17to32 :
    run 0x11 (onBuffer (dataBuffer 17) 0 0)
      = some (0xC5AA7EA87BFEE0C4, 0, 0x110001) := by
  decide +kernel

/-- F1. -/
theorem test_naLen33to64 :
    run 0x12 (onBuffer (dataBuffer 33) 0 0)
      = some (0xBB21B4CAAD9991DA, 0, 0x120001) := by
  decide +kernel

/-- F1. -/
theorem test_weak32 : run 0x13 (regs 1 2 3 4 5 6) = some (0xF, 0x800000B00006, 0x130001) := by
  decide +kernel

/-- F1. -/
theorem test_weak32m :
    run 0x14 (onBuffer (dataBuffer 40) 0 0)
      = some (0x94460C89709F238F, 0x108B56B150265B64, 0x140001) := by
  decide +kernel

/-- F2. -/
theorem test_xoH32 :
    run 0x18 (sample capable (dataBuffer 32) (k2 - 30) 1 2 0 0 0)
      = some (0x5D0D06616631F739, 0, 0x180001) := by
  decide +kernel

/-- F2. -/
theorem test_xoLen33to64 :
    run 0x19 (onBuffer (dataBuffer 33) 0 0)
      = some (0xC57158FEC5F502BE, 0, 0x190001) := by
  decide +kernel

/-- F2. -/
theorem test_xoLen65to96 :
    run 0x1A (onBuffer (dataBuffer 65) 0 0)
      = some (0xFF36587638D3482B, 0, 0x1A0001) := by
  decide +kernel

/-- F2. -/
theorem test_uoH :
    run 0x1C (regs 1 2 0x9AE16A3B2F90404F 30 0 0)
      = some (0x912389F50F06B04D, 0, 0x1C0001) := by
  decide +kernel

/-- F5. -/
theorem test_mkLen0to4 : run 0x20 (onBuffer [0x80] 0 0) = some (0x2FC8696B, 0, 0x200001) := by
  decide +kernel

/-- F5. -/
theorem test_mkLen5to12 : run 0x21 (onBuffer abcde 1 0) = some (0x5ECFBA04, 0, 0x210001) := by
  decide +kernel

/-- F5. -/
theorem test_mkLen13to24 :
    run 0x22 (onBuffer (dataBuffer 13) 1 0)
      = some (0x75956D45, 0, 0x220001) := by
  decide +kernel

/-- F8. -/
theorem test_ccLen0to4 : run 0x24 (onBuffer abc 0 0) = some (0x2F635EC7, 0, 0x240001) := by
  decide +kernel

/-- F8. -/
theorem test_ccLen5to12 : run 0x25 (onBuffer abcde 0 0) = some (0xA3F366AC, 0, 0x250001) := by
  decide +kernel

/-- F8. -/
theorem test_ccLen13to24 :
    run 0x26 (onBuffer (dataBuffer 13) 0 0)
      = some (0x34A3EE0, 0, 0x260001) := by
  decide +kernel

/-- F8. -/
theorem test_ccCitymurmur :
    run 0x27 (onBuffer (dataBuffer 32) 1 2)
      = some (0x439712B1603801A5, 0xC4AC43ACDD110BF6, 0x270001) := by
  decide +kernel

/-- T1. -/
theorem test_naH64 :
    run 0x40 (onBuffer (dataBuffer 65) 0 0)
      = some (0x32B4A7B126581B47, 0, 0x400001) := by
  decide +kernel

/-- T2. -/
theorem test_naH64s :
    run 0x41 (onBuffer (dataBuffer 80) 0x1234 0)
      = some (0x30AA632D80A72DB8, 0, 0x410001) := by
  decide +kernel

/-- T2. -/
theorem test_naH64ss :
    run 0x42 (onBuffer (dataBuffer 65) 1 2)
      = some (0xD48AD684E9568478, 0, 0x420001) := by
  decide +kernel

/-- T1. -/
theorem test_uoH64 :
    run 0x44 (onBuffer (dataBuffer 65) 0 0)
      = some (0xEAE100CFAA15FA49, 0, 0x440001) := by
  decide +kernel

/-- T2. -/
theorem test_uoH64s :
    run 0x45 (onBuffer (dataBuffer 80) 0x1234 0)
      = some (0x660188CD3A6DBABB, 0, 0x450001) := by
  decide +kernel

/-- T2. -/
theorem test_uoH64ss :
    run 0x46 (onBuffer (dataBuffer 65) 1 2)
      = some (0x644856B56C14F259, 0, 0x460001) := by
  decide +kernel

/-- T1. -/
theorem test_xoH64 :
    run 0x48 (onBuffer (dataBuffer 80) 0 0)
      = some (0xD1D9CD88534C3653, 0, 0x480001) := by
  decide +kernel

/-- T2. -/
theorem test_xoH64s :
    run 0x49 (onBuffer (dataBuffer 96) 0x1234 0)
      = some (0x22B18E6604A74760, 0, 0x490001) := by
  decide +kernel

/-- T2. -/
theorem test_xoH64ss :
    run 0x4A (onBuffer (dataBuffer 96) 1 2)
      = some (0x515D169F6219A1E8, 0, 0x4A0001) := by
  decide +kernel

/-- T1. -/
theorem test_teH64 :
    run 0x4C (onBuffer (dataBuffer 96) 0 0)
      = some (0x4FBA6BC683A18607, 0, 0x4C0001) := by
  decide +kernel

/-- F3. -/
theorem test_teH64s :
    run 0x4D (onBuffer (dataBuffer 65) 0x1234 0)
      = some (0xCB0CF725FCEE6E4C, 0, 0x4D0001) := by
  decide +kernel

/-- F3. -/
theorem test_teH64ss :
    run 0x4E (onBuffer (dataBuffer 65) 1 2)
      = some (0x644856B56C14F259, 0, 0x4E0001) := by
  decide +kernel

/-- T3. -/
theorem test_ntH32 : run 0x50 (onBuffer (dataBuffer 40) 0 0) = some (0xA75B3F16, 0, 0x500001) := by
  decide +kernel

/-- F3, high half ignored. -/
theorem test_ntH32s :
    run 0x51 (onBuffer [] 0xFFFFFFFF00001234 0)
      = some (0x6E017134, 0, 0x510001) := by
  decide +kernel

/-- F5. -/
theorem test_mkH32 : run 0x54 (onBuffer (dataBuffer 25) 0 0) = some (0x1B9D1388, 0, 0x540001) := by
  decide +kernel

/-- F5. -/
theorem test_mkH32s :
    run 0x55 (onBuffer (dataBuffer 25) 0x1234 0)
      = some (0x8610356, 0, 0x550001) := by
  decide +kernel

/-- F7. -/
theorem test_suH32 : run 0x58 (onBuffer (dataBuffer 24) 0 0) = some (0x208A5C5, 0, 0x580001) := by
  decide +kernel

/-- F7. -/
theorem test_suH32s :
    run 0x59 (onBuffer (dataBuffer 24) 0x1234 0)
      = some (0x60EA2BED, 0, 0x590001) := by
  decide +kernel

/-- F7. -/
theorem test_saH32 : run 0x5C (onBuffer (dataBuffer 13) 0 0) = some (0x38819BBB, 0, 0x5C0001) := by
  decide +kernel

/-- F7. -/
theorem test_saH32s :
    run 0x5D (onBuffer (dataBuffer 12) 0x1234 0)
      = some (0x5175117E, 0, 0x5D0001) := by
  decide +kernel

/-- F8. -/
theorem test_ccH32 : run 0x60 (onBuffer (dataBuffer 25) 0 0) = some (0x8C2B3C64, 0, 0x600001) := by
  decide +kernel

/-- T3. -/
theorem test_ccH32s :
    run 0x61 (onBuffer (dataBuffer 40) 0x1234 0)
      = some (0x893C3742, 0, 0x610001) := by
  decide +kernel

/-- T4. -/
theorem test_ccH128 :
    run 0x62 (onBuffer (dataBuffer 144) 0 0)
      = some (0xA6367BC599A4CB32, 0x47DEEF7F02860E70, 0x620001) := by
  decide +kernel

/-- T4. -/
theorem test_ccH128s :
    run 0x63 (onBuffer (dataBuffer 128) 1 2)
      = some (0x3D5AEA5AD0930FE1, 0x2E84517E75B2AE9B, 0x630001) := by
  decide +kernel

/-- F9a. -/
theorem test_hash32 :
    run 0x80 (sample debugging abc 0 0 0 0 0 0)
      = some (0x8081477, 0, 0x800001) := by
  decide +kernel

/-- F9b. -/
theorem test_hash32s :
    run 0x81 (sample debugging [] 0x1234 0 0 0 0 0)
      = some (0xF94CE8EF, 0, 0x810001) := by
  decide +kernel

/-- F9a. -/
theorem test_hash64 :
    run 0x84 (sample debugging abc 0 0 0 0 0 0)
      = some (0xD4655CC380DF37EA, 0, 0x840001) := by
  decide +kernel

/-- F9b. -/
theorem test_hash64s :
    run 0x85 (sample debugging [] 0x1234 0 0 0 0 0)
      = some (0xA3FD7669B8C49E75, 0, 0x850001) := by
  decide +kernel

/-- F9b. -/
theorem test_hash64ss :
    run 0x86 (sample debugging [] 1 2 0 0 0 0)
      = some (0x75A939555EF4EBAA, 0, 0x860001) := by
  decide +kernel

/-- F9a. -/
theorem test_hash128 :
    run 0x88 (sample debugging abc 0 0 0 0 0 0)
      = some (0x345F7AEAF746AAF2, 0xE67575DC9F88AF96, 0x880001) := by
  decide +kernel

/-- T4, DEBUG 0. -/
theorem test_hash128s :
    run 0x89 (onBuffer [] 1 2)
      = some (0xB19E5BAC36C2662, 0x297DB2B766D3AACD, 0x890001) := by
  decide +kernel

/-- F9a. -/
theorem test_fp32 :
    run 0x90 (sample debugging abc 0 0 0 0 0 0)
      = some (0x2F635EC7, 0, 0x900001) := by
  decide +kernel

/-- F9a. -/
theorem test_fp64 :
    run 0x91 (sample debugging abc 0 0 0 0 0 0)
      = some (0x24A5B3A074E7F369, 0, 0x910001) := by
  decide +kernel

/-- F9a. -/
theorem test_fp128 :
    run 0x92 (sample debugging abc 0 0 0 0 0 0)
      = some (0x3980B2AFD2126C04, 0xA085F09013029E45, 0x920001) := by
  decide +kernel

/-! ## Faults, stops and host accesses -/

/-- Sections F0 to F8: DOMAIN just outside each kernel's domain, whatever SRC and the memory are. -/
theorem test_domain :
    ∀ p ∈ ([
        (0x01, 3, 0x010302), (0x02, 7, 0x020302), (0x10, 17, 0x100302), (0x11, 16, 0x110302),
        (0x11, 33, 0x110302), (0x12, 32, 0x120302), (0x12, 65, 0x120302), (0x14, 31, 0x140302),
        (0x18, 15, 0x180302), (0x19, 32, 0x190302), (0x19, 65, 0x190302), (0x1A, 64, 0x1A0302),
        (0x1A, 97, 0x1A0302), (0x20, 5, 0x200302), (0x21, 4, 0x210302), (0x21, 13, 0x210302),
        (0x22, 12, 0x220302), (0x22, 25, 0x220302), (0x24, 5, 0x240302), (0x25, 4, 0x250302),
        (0x25, 13, 0x250302), (0x26, 12, 0x260302), (0x26, 25, 0x260302), (0x27, 128, 0x270302)] : List (Nat × U64 × U64)),
      run p.1 (withLen capable 0xFFFFFFFFFFFFFFFF p.2.1) = some (0, 0, p.2.2) := by
  decide +kernel

/-- Sections F3 and F7: MISCONFIG when one capability of a gate is absent, at LEN 0 too; SA without
AES completes. -/
theorem test_misconfig_families :
    run 0x4C (withLen { capable with hwcap := { noCaps with simd128 := true } } 0 0)
      = some (0, 0, 0x4C0202)
    ∧ run 0x50 (withLen { capable with hwcap := { noCaps with ptr64 := true } } 0 0)
      = some (0, 0, 0x500202)
    ∧ run 0x58 (withLen { capable with hwcap := { noCaps with simd128 := true, crc32 := true } } 0 0)
      = some (0, 0, 0x580202)
    ∧ run 0x5D (withLen { capable with hwcap := { noCaps with simd128 := true, aes := true } } 0 0)
      = some (0, 0, 0x5D0202)
    ∧ run 0x5C (withLen { capable with hwcap := { noCaps with simd128 := true, crc32 := true } } 0 0)
      = some (0xDC56D17A, 0, 0x5C0001) := by decide +kernel

/-- Section F9c: a claimed and absent gate stops HASH64 and HASH32, and not FP64. -/
theorem test_misconfig_hash :
    run 0x84 (withLen claimedOnly 0 0) = some (0, 0, 0x840202)
    ∧ run 0x80 (withLen claimedOnly 0 0) = some (0, 0, 0x800202)
    ∧ run 0x91 (withLen claimedOnly 0 0) = some (0x9AE16A3B2F90404F, 0, 0x910001) := by decide +kernel

/-- Section F10: ILLEGAL_OP for a reserved OPC and for a set RSV bit, with LAST_OPC = v[7:0]. -/
theorem test_illegal :
    run 0x0F State.reset = some (0, 0, 0x0F0102) ∧ run 0xFF State.reset = some (0, 0, 0xFF0102)
    ∧ run 0x140 State.reset = some (0, 0, 0x400102)
    ∧ run 0x100 State.reset = some (0, 0, 0x000102) := by decide +kernel

/-- R345: MISCONFIG before DOMAIN and the buffer; DOMAIN before the buffer. -/
theorem test_priority :
    run 0x84 (withLen claimedOnly 0xFFFFFFFFFFFFFFFF 2) = some (0, 0, 0x840202)
    ∧ run 0x11 (withLen configAtReset 0xFFFFFFFFFFFFFFFF 3) = some (0, 0, 0x110302) := by
  decide +kernel

/-- Section F10: a wrapped buffer is stuck, one no byte of which is admitted is stuck, and an empty
one at the top of the space is read. -/
theorem test_stuck :
    exec .fp64 (withLen configAtReset 0xFFFFFFFFFFFFFFFF 2) = .fault (.stuck .bufferWraps)
    ∧ exec .fp64 (withLen configAtReset 0xFFFFFFFFFFFFFFFF 1) = .fault (.stuck .bufferNotAdmitted)
    ∧ run 0x91 (withLen configAtReset 0xFFFFFFFFFFFFFFFF 0)
      = some (0x9AE16A3B2F90404F, 0, 0x910001) := ⟨rfl, rfl, by decide +kernel⟩

/-- R65: a buffer whose last byte lies in a side-effect range is refused; one that ends before it
is read. -/
theorem test_sideEffects :
    exec .fp64 (sample { capable with sideEffects := [⟨0x1002, 4⟩] } abc 0 0 0 0 0 0)
      = .refused .sideEffectMemory
    ∧ run 0x91 (sample { capable with sideEffects := [⟨0x1003, 4⟩] } abc 0 0 0 0 0 0)
      = some (0x24A5B3A074E7F369, 0, 0x910001) := ⟨by rfl, by decide +kernel⟩

/-- A faulted engine (section F10). -/
def halted : State := { State.reset with fault := true, fcode := 1, lastOpc := 0x0F }

/-- Section F10: a command to a halted engine is ignored. -/
theorem test_halted : run 0x00 halted = some (0, 0, 0x0F0102) := by decide +kernel

/-- `s`, with the host's next accesses `p`. -/
def asks (s : State) (p : List HostAction) : State := { s with pending := p }

/-- What the host has got after one step. -/
def gotten (o : StepResult) : List U64 :=
  match o with
  | .next t => t.got
  | .fault _ => []
  | .refused _ => []

/-- Section F10 and P3: the loads of STATUS, CMD, a reserved offset, CAP and CONFIG. -/
theorem test_loads :
    gotten (step (asks State.reset [.load 0x58 8])) = [0]
    ∧ gotten (step (asks State.reset [.load 0x00 8])) = [0]
    ∧ gotten (step (asks State.reset [.load 0x70 8])) = [0]
    ∧ gotten (step (asks State.reset [.load 0x60 8])) = [0]
    ∧ gotten (step (asks State.reset [.load 0x68 8])) = [0x20000]
    ∧ gotten (step (asks (withLen claimedOnly 0 0) [.load 0x60 8])) = [0x9]
    ∧ gotten (step (asks (withLen claimedOnly 0 0) [.load 0x68 8])) = [0x31300] := by decide +kernel

/-- R41: the accesses that are not aligned 64-bit accesses to the window. -/
theorem test_badAccess :
    step (asks State.reset [.load 0x58 4]) = .refused .badHostAccess
    ∧ step (asks State.reset [.load 0x5C 8]) = .refused .badHostAccess
    ∧ step (asks State.reset [.store 0x100 8 0]) = .refused .badHostAccess := ⟨rfl, rfl, rfl⟩

/-- R88, R89: lines and pseudo-instructions as host accesses (95_test_vectors.md P1 and P2). -/
theorem test_assembly :
    programActions 0x4000 (expandPseudo (.hashof .fp32 0x1000 3))
      = [.store 0x4008 8 0x1000, .store 0x4010 8 3, .store 0x4000 8 0x90, .wait, .load 0x4048 8,
         .load 0x4050 8]
    ∧ programActions 0 (expandPseudo (.seeds 1 2) ++ [.cmdw 0x140, .set .x5 6, .data 8 [1]])
      = [.store 0x18 8 1, .store 0x20 8 2, .store 0x00 8 0x140, .store 0x40 8 6]
    ∧ programImage [] [.data 0x11 [0xBB], .data 0x10 [0xAA, 0xCC]]
      = [(0x10, 0xAA), (0x11, 0xCC)] := by decide +kernel

/-- R310: the defaults for CLAIMCAP = {SIMD128, PTR64} and {SIMD128, CRC32, AES} (section F10). -/
theorem test_defaults :
    configWord { configAtReset with sel32 := sel32Default teGate, sel64 := sel64Default teGate,
                                    sel64s := sel64sDefault teGate } = 0x31300
    ∧ configWord { configAtReset with sel32 := sel32Default suGate, sel64 := sel64Default suGate,
                                      sel64s := sel64sDefault suGate } = 0x20200
    ∧ capWord teGate = 0x9 ∧ capWord suGate = 0x7 := by decide

/-- Section V0: the first 16 bytes of the data buffer. -/
theorem test_dataBuffer :
    dataBuffer 16 = [0x6a, 0xe4, 0x4a, 0x82, 0x3b, 0xe7, 0xaa, 0x66, 0x42, 0xaa, 0xb0, 0xce, 0x6a,
                     0x47, 0xea, 0x25] := by decide +kernel

/-- R33, R341: what the spec calls Unwritten is recorded: FMIX and a load of R0 at reset, FP64 with
LEN written and SRC not, and not HASH64 behind an absent gate. -/
theorem test_unwritten :
    nextUnwritten (State.reset.withFetchWord 64 0x07) = true
    ∧ nextUnwritten (asks State.reset [.load 0x48 8]) = true
    ∧ nextUnwritten (State.reset.withFetchWord 64 0x00) = false
    ∧ nextUnwritten (asks { State.reset with written := { State.reset.written with len := true } }
        [.store 0 8 0x91]) = true
    ∧ nextUnwritten ((withLen claimedOnly 0 0).withFetchWord 64 0x84) = false := by decide

/-! ## Witnesses: states and operands that meet the hypotheses of the statements -/

/-- The data buffer has the length asked for. -/
theorem dataBuffer_length (n : Nat) : (dataBuffer n).length = n := by
  have h : ∀ (k i : Nat) (a b : U64), (dataBytes k i a b).length = k := by
    intro k
    induction k with
    | zero => intro i a b; rfl
    | succ k ih => intro i a b; simp [dataBytes, ih]
  exact h n 0 9 777

/-- The buffer of a sample state is the bytes it was built on. -/
theorem sample_bufferIs {c : CoreConfig} (hc : c.sideEffects = []) {B : Bytes}
    (hB : B.length < 2 ^ 32) (x0 x1 x2 x3 x4 x5 : U64) :
    BufferIs (sample c B x0 x1 x2 x3 x4 x5) B := by
  have hl : (sample c B x0 x1 x2 x3 x4 x5).len.toNat = B.length := by
    simp only [sample, BitVec.toNat_ofNat]
    omega
  have hs : (sample c B x0 x1 x2 x3 x4 x5).src.toNat = 0x1000 := rfl
  refine ⟨hl.symm, by rw [hl, hs]; omega, ?_, fun i hi => ?_⟩
  · simp [sample, hc, touchesSideEffects]
  · have h := memory_read_writeBytes [] 0x1000 B (0x1000 + i)
    rw [if_pos (by omega), Nat.add_sub_cancel_left] at h
    exact h

/-- The engine `capable`, not faulted, with all of `D[0..n)` as its readable buffer. -/
def BufferAt (n : Nat) : Prop :=
  (onBuffer (dataBuffer n) 1 2).fault = false ∧ (onBuffer (dataBuffer n) 1 2).len.toNat = n
    ∧ (dataBuffer n).length = n ∧ BufferIs (onBuffer (dataBuffer n) 1 2) (dataBuffer n)

/-- Every length below 2^32 is met. -/
theorem bufferAt (n : Nat) (h : n < 2 ^ 32) : BufferAt n := by
  have hb := sample_bufferIs (c := capable) rfl (B := dataBuffer n)
    (by rw [dataBuffer_length]; exact h) 1 2 0 0 0 0
  exact ⟨rfl, hb.1.symm.trans (dataBuffer_length n), dataBuffer_length n, hb⟩

/-- An engine that is not faulted and has LEN `n`, to fault with DOMAIN on. -/
def LenAt (n : Nat) : Prop :=
  (withLen capable 0 (BitVec.ofNat 64 n)).fault = false
    ∧ (withLen capable 0 (BitVec.ofNat 64 n)).len.toNat = n

/-- Every LEN is met. -/
theorem lenAt (n : Nat) (h : n < 2 ^ 64) : LenAt n :=
  ⟨rfl, by simp only [withLen, BitVec.toNat_ofNat]; omega⟩

/-- IllegalWords: the first and the last listed OPC, RSV bits 8 and 63 alone, at an engine that is
not faulted; and the listed ranges meet no command's OPC where they end. -/
theorem witness_illegalWords :
    (∀ v ∈ [0x0F#64, 0x93#64, 0xFF#64, 0x100#64, 0x8000000000000000#64],
      HostStores (asks State.reset [.store 0 8 v, .wait]) .cmd v [.wait])
    ∧ State.reset.fault = false
    ∧ (0x0F#64).extractLsb' 0 8 = 0x0F#8 ∧ (0xFF#64).extractLsb' 0 8 = 0xFF#8
    ∧ (0x100#64).extractLsb' 8 56 ≠ 0 ∧ (0x8000000000000000#64).extractLsb' 8 56 ≠ 0
    ∧ Instr.nop.opc = 0 ∧ Instr.tweak128.opc = 0x0E ∧ Instr.fp128.opc = 0x92 := by
  refine ⟨fun v _ => ⟨rfl, rfl⟩, rfl, ?_⟩
  decide

/-- StepRunsDecodedCommand, EveryCommandEnds: a store of HASH64's word. -/
theorem witness_stepRunsDecodedCommand :
    HostStores (asks (onBuffer abc 1 2) [.store 0 8 0x84, .load 0x48 8]) .cmd 0x84 [.load 0x48 8]
    ∧ decode 0x84 = .ok .hash64 := ⟨⟨rfl, rfl⟩, by decide⟩

/-- HaltedEngine: a faulted engine with a store to CMD, one to each operand register, a load, an
idle host, and a reset. -/
theorem witness_haltedEngine :
    halted.fault = true ∧ HostStores (asks halted [.store 0 8 7]) .cmd 7 []
    ∧ (∀ r ∈ [OperandReg.src, .len, .x0, .x1, .x2, .x3, .x4, .x5],
        HostStores (asks halted [.store (regOffset (operandReg r)) 8 5]) (operandReg r) 5 [])
    ∧ HostLoads (asks halted [.load 0x58 8]) .status []
    ∧ (step halted = .next halted ∧ ∀ rest, halted.pending ≠ .reset :: rest)
    ∧ configAdmitted halted.cfg = true ∧ (asks halted [.reset]).pending = .reset :: [] := by
  refine ⟨rfl, ⟨rfl, rfl⟩, fun r _ => ⟨rfl, ?_⟩, ⟨rfl, rfl⟩, ⟨rfl, fun rest h => ?_⟩, rfl, rfl⟩
  · cases r <;> rfl
  · cases h

/-- FaultEntry: one store for each of the three codes. -/
theorem witness_faultEntry :
    HostStores (asks (withLen claimedOnly 0 3) [.store 0 8 0x0F]) .cmd 0x0F []
    ∧ HostStores (asks (withLen claimedOnly 0 3) [.store 0 8 0x84]) .cmd 0x84 []
    ∧ HostStores (asks (withLen claimedOnly 0 3) [.store 0 8 0x01]) .cmd 0x01 []
    ∧ (withLen claimedOnly 0 3).fault = false
    ∧ (∃ t, step (asks (withLen claimedOnly 0 3) [.store 0 8 0x0F]) = .next t
        ∧ t.fault = true ∧ t.fcode = 1)
    ∧ (∃ t, step (asks (withLen claimedOnly 0 3) [.store 0 8 0x84]) = .next t
        ∧ t.fault = true ∧ t.fcode = 2)
    ∧ (∃ t, step (asks (withLen claimedOnly 0 3) [.store 0 8 0x01]) = .next t
        ∧ t.fault = true ∧ t.fcode = 3) :=
  ⟨⟨rfl, rfl⟩, ⟨rfl, rfl⟩, ⟨rfl, rfl⟩, rfl, ⟨_, rfl, rfl, rfl⟩, ⟨_, rfl, rfl, rfl⟩,
    ⟨_, rfl, rfl, rfl⟩⟩

/-- MisconfigGates, Hash32Commands, Hash64Commands: gates not held, for each gated command, the HASH
commands by their selectors. -/
theorem witness_gatesAbsent :
    (∀ i ∈ [Instr.teH64, .teH64s, .teH64ss, .ntH32, .ntH32s, .suH32, .suH32s, .saH32, .saH32s,
        .hash32, .hash32s, .hash64, .hash64s, .hash64ss], ¬ gateHeld claimedOnly i)
    ∧ ¬ gateHeld { claimedOnly with sel32 := .su } .hash32
    ∧ ¬ gateHeld { claimedOnly with sel32 := .sa } .hash32s
    ∧ ¬ gateHeld { claimedOnly with hwcap := { allCaps with aes := false } } .suH32
    ∧ ¬ gateHeld { claimedOnly with hwcap := { allCaps with crc32 := false } } .saH32
    ∧ ¬ gateHeld { claimedOnly with hwcap := { allCaps with ptr64 := false } } .ntH32
    ∧ (withLen claimedOnly 0 0).fault = false := by
  simp only [gateHeld_iff]
  decide

/-- MisconfigGates, Hash32Commands, Hash64Commands, ReadyCommandsComplete: gates held by hardware
that has them, and by a HASH command whose selector needs nothing on hardware that has nothing. -/
theorem witness_gatesHeld :
    (∀ i ∈ [Instr.teH64, .teH64s, .teH64ss, .ntH32, .ntH32s, .suH32, .suH32s, .saH32, .saH32s,
        .hash32, .hash32s, .hash64, .hash64s, .hash64ss],
      gateHeld { claimedOnly with hwcap := allCaps } i)
    ∧ (∀ i ∈ [Instr.hash32, .hash32s, .hash64, .hash64s, .hash64ss, .nop, .fp64, .fetch32],
        gateHeld configAtReset i)
    ∧ gateHeld { capable with sel32 := .su } .hash32 ∧ gateHeld { capable with sel32 := .sa } .hash32
    ∧ gateHeld { capable with sel64s := .na } .hash64s
    ∧ gateHeld { capable with sel64s := .uo } .hash64ss
    ∧ gateHeld { capable with hwcap := { allCaps with aes := false } } .saH32 := by
  simp only [gateHeld_iff]
  decide

/-- A sample state with a buffer for each selector: HASH32 and HASH64S read a buffer with every
family selected. -/
theorem witness_hashBuffers :
    (∀ x : Sel32, BufferIs (sample { capable with sel32 := x } abc 1 2 0 0 0 0) abc)
    ∧ (∀ x : Sel64, BufferIs (sample { capable with sel64 := x } abc 1 2 0 0 0 0) abc)
    ∧ (∀ x : Sel64S, BufferIs (sample { capable with sel64s := x } abc 1 2 0 0 0 0) abc)
    ∧ (sample { capable with sel32 := .nt } abc 1 2 0 0 0 0).fault = false :=
  ⟨fun _ => sample_bufferIs rfl (by decide) _ _ _ _ _ _,
    fun _ => sample_bufferIs rfl (by decide) _ _ _ _ _ _,
    fun _ => sample_bufferIs rfl (by decide) _ _ _ _ _ _, rfl⟩

/-- DomainFaults: the LEN just below and just above each domain, and the least and greatest inside
it. -/
theorem witness_domains :
    kernelDomain .fetch32 = some (4, 2 ^ 64 - 1) ∧ LenAt 3 ∧ LenAt 4 ∧ LenAt (2 ^ 64 - 1)
    ∧ kernelDomain .fetch64 = some (8, 2 ^ 64 - 1) ∧ LenAt 7 ∧ LenAt 8
    ∧ kernelDomain .naLen0to16 = some (0, 16) ∧ LenAt 0 ∧ LenAt 16 ∧ LenAt 17
    ∧ kernelDomain .naLen17to32 = some (17, 32) ∧ LenAt 32 ∧ LenAt 33
    ∧ kernelDomain .naLen33to64 = some (33, 64) ∧ LenAt 64 ∧ LenAt 65
    ∧ kernelDomain .weak32m = some (32, 2 ^ 64 - 1) ∧ LenAt 31
    ∧ kernelDomain .xoH32 = some (16, 2 ^ 64 - 1) ∧ LenAt 15
    ∧ kernelDomain .xoLen33to64 = some (33, 64) ∧ kernelDomain .xoLen65to96 = some (65, 96)
    ∧ LenAt 96 ∧ LenAt 97 ∧ kernelDomain .mkLen0to4 = some (0, 4) ∧ LenAt 5
    ∧ kernelDomain .mkLen5to12 = some (5, 12) ∧ LenAt 12 ∧ LenAt 13
    ∧ kernelDomain .mkLen13to24 = some (13, 24) ∧ LenAt 24 ∧ LenAt 25
    ∧ kernelDomain .ccLen0to4 = some (0, 4) ∧ kernelDomain .ccLen5to12 = some (5, 12)
    ∧ kernelDomain .ccLen13to24 = some (13, 24) ∧ kernelDomain .ccCitymurmur = some (0, 127)
    ∧ LenAt 127 ∧ LenAt 128 := by
  refine ⟨rfl, lenAt _ ?_, lenAt _ ?_, lenAt _ ?_, rfl, lenAt _ ?_, lenAt _ ?_, rfl, lenAt _ ?_,
    lenAt _ ?_, lenAt _ ?_, rfl, lenAt _ ?_, lenAt _ ?_, rfl, lenAt _ ?_, lenAt _ ?_, rfl,
    lenAt _ ?_, rfl, lenAt _ ?_, rfl, rfl, lenAt _ ?_, lenAt _ ?_, rfl, lenAt _ ?_, rfl, lenAt _ ?_,
    lenAt _ ?_, rfl, lenAt _ ?_, lenAt _ ?_, rfl, rfl, rfl, rfl, lenAt _ ?_, lenAt _ ?_⟩ <;> decide

/-- DomainFaults, BufferStops, ReadyCommandsComplete: LEN values inside the domain, at its ends. -/
theorem witness_lenHeld :
    lenHeld 4 .fetch32 ∧ lenHeld (2 ^ 64 - 1) .fetch32 ∧ lenHeld 17 .naLen17to32
    ∧ lenHeld 32 .naLen17to32 ∧ lenHeld 127 .ccCitymurmur ∧ lenHeld 0 .fp64
    ∧ lenHeld (2 ^ 64 - 1) .fp64 := by
  refine ⟨?_, ?_, ?_, ?_, ?_, ?_, ?_⟩ <;>
    exact (lenHeld_iff (by decide) _).mpr (by decide)

/-- BufferStops: a buffer that wraps by one byte, one that ends at the top of the space and is not
admitted, one whose first and one whose last byte has side effects, one whose last byte is missing,
and an empty one; each at FP64, whose gate and domain hold. -/
theorem witness_bufferStops :
    Instr.fp64 ∉ registerOnly ∧ gateHeld capable .fp64
    ∧ 2 ^ 64 < (withLen capable 0xFFFFFFFFFFFFFFFF 2).src.toNat + 2
    ∧ (withLen capable 0xFFFFFFFFFFFFFFFF 1).src.toNat + 1 = 2 ^ 64
    ∧ Memory.read (withLen capable 0xFFFFFFFFFFFFFFFF 1).mem (2 ^ 64 - 1) = none
    ∧ (⟨0x1002, 4⟩ : MemRange) ∈ ({ capable with sideEffects := [⟨0x1002, 4⟩] }).sideEffects
    ∧ (∃ a, 0x1002 ≤ a ∧ a < 0x1002 + 4 ∧ 0x1000 ≤ a ∧ a < 0x1000 + 3)
    ∧ (∃ a, 0xFFF ≤ a ∧ a < 0xFFF + 2 ∧ 0x1000 ≤ a ∧ a < 0x1000 + 3)
    ∧ (∀ a, 0x1003 ≤ a → ¬ (0x1000 ≤ a ∧ a < 0x1000 + 3))
    ∧ Memory.read ({ onBuffer abc 1 2 with len := 4 }).mem (0x1000 + 3) = none
    ∧ (withLen capable 0xFFFFFFFFFFFFFFFF 0).len = 0 := by
  refine ⟨by decide, (gateHeld_iff _ _).mpr (by decide), by decide, by decide, rfl, by decide,
    ⟨0x1002, by decide⟩, ⟨0x1000, by decide⟩, fun a h => by omega, by decide +kernel, rfl⟩

/-- ReadyCommandsComplete: a state ready for NOP and for every command that reads the buffer at 16
bytes. -/
theorem witness_readyCommands :
    (onBuffer (dataBuffer 16) 1 2).fault = false ∧ gateHeld capable .nop ∧ gateHeld capable .teH64
    ∧ Instr.nop ∈ registerOnly ∧ Instr.teH64 ∉ registerOnly ∧ Instr.teH64 ≠ .nop
    ∧ lenHeld 16 .nop ∧ lenHeld 16 .teH64 ∧ ∃ B, BufferIs (onBuffer (dataBuffer 16) 1 2) B :=
  ⟨rfl, (gateHeld_iff _ _).mpr (by decide), (gateHeld_iff _ _).mpr (by decide), by decide,
    by decide, by decide, (lenHeld_iff (by decide) _).mpr (by decide),
    (lenHeld_iff (by decide) _).mpr (by decide), ⟨_, (bufferAt 16 (by decide)).2.2.2⟩⟩

/-- CommandFrame, ConfigurationIsFixed: a command that completes, one that faults, and a step. -/
theorem witness_commandFrame :
    (∃ t, exec .fmix (regs 7 0 0 0 0 0) = .next t ∧ t.fault = false)
    ∧ (∃ t, exec .fetch32 (withLen capable 0 3) = .next t ∧ t.fault = true)
    ∧ (∃ t, step (asks State.reset [.store 0 8 0]) = .next t) :=
  ⟨⟨_, rfl, rfl⟩, ⟨_, rfl, rfl⟩, ⟨_, rfl⟩⟩

/-- A second engine with the buffer "abc", whose other registers, STATUS and host all differ from
`onBuffer abc 7 2`'s; X0 agrees. -/
def otherEngine : State :=
  { sample capable abc 7 9 8 7 6 5 with
      r0 := 3, r1 := 4, done := true, lastOpc := 9, got := [1], pending := [.wait] }

/-- ResultDependsOnItsReads: two engines that agree on X0 and the buffer only, for MK_H32S. -/
theorem witness_resultDependsOnItsReads :
    Instr.mkH32s ≠ .nop ∧ (onBuffer abc 7 2).fault = false ∧ otherEngine.fault = false
    ∧ otherEngine.cfg = (onBuffer abc 7 2).cfg ∧ sameOperands .mkH32s (onBuffer abc 7 2) otherEngine
    ∧ BufferIs (onBuffer abc 7 2) abc ∧ BufferIs otherEngine abc
    ∧ (∃ t, exec .mkH32s (onBuffer abc 7 2) = .next t) := by
  refine ⟨by decide, rfl, rfl, rfl, ?_, sample_bufferIs rfl (by decide) _ _ _ _ _ _,
    sample_bufferIs (c := capable) rfl (by decide) 7 9 8 7 6 5, _, rfl⟩
  refine ⟨fun _ => rfl, ?_, ?_, ?_, ?_, ?_⟩ <;> intro h <;> cases h

/-- LegalKept: legal states and a step from each: at reset, halted, and after a completed command. -/
theorem witness_legalKept :
    Legal State.reset ∧ Legal halted ∧ Legal (complete (.w64 5) State.reset)
    ∧ step State.reset = .next State.reset ∧ step halted = .next halted
    ∧ step (complete (.w64 5) State.reset) = .next (complete (.w64 5) State.reset) := by
  refine ⟨?_, ?_, ?_, rfl, rfl, rfl⟩ <;> unfold Legal <;> decide

/-- StatusRegister: a store of a command, a step that changes STATUS, and one that clears FAULT. -/
theorem witness_statusRegister :
    Legal State.reset ∧ State.reset.fault = false
    ∧ HostStores (asks State.reset [.store 0 8 0]) .cmd 0 []
    ∧ (∃ t, step (asks State.reset [.store 0 8 0]) = .next t
        ∧ readReg .status t ≠ readReg .status State.reset)
    ∧ (∃ t, step (asks halted [.reset]) = .next t ∧ halted.fault = true ∧ t.fault = false) := by
  refine ⟨by unfold Legal; decide, rfl, ⟨rfl, rfl⟩, ⟨_, rfl, ?_⟩, ⟨_, rfl, rfl, rfl⟩⟩
  decide

/-- CapAndConfigWords, OtherHostAccesses: stores to the read-only registers and to the first and last
reserved offset, a load of the latter, an access of 4 bytes, and one at an address 4 past a
register's. -/
theorem witness_otherHostAccesses :
    (∀ r ∈ [Reg.r0, .r1, .status, .cap, .config, .reserved 0, .reserved 17],
      HostStores (asks State.reset [.store (regOffset r) 8 1]) r 1 [])
    ∧ HostLoads (asks State.reset [.load 0xF8 8]) (.reserved 17) []
    ∧ configAdmitted configAtReset = true ∧ configAtReset.regBase % 8 = 0
    ∧ ¬ (4 = 8 ∧ 0x58 % 8 = 0) ∧ ¬ (8 = 8 ∧ 0x5C % 8 = 0)
    ∧ (asks State.reset [.store 0x5C 8 1]).pending = .store 0x5C 8 1 :: []
    ∧ (asks State.reset [.load 0x58 4]).pending = .load 0x58 4 :: [] := by
  refine ⟨fun r hr => ⟨rfl, ?_⟩, ⟨rfl, rfl⟩, rfl, rfl, by decide, by decide, rfl, rfl⟩
  simp [asks, State.reset, configAtReset]

/-- RegisterAccess: a store to each operand register and a load of each kind of register. -/
theorem witness_registerAccess :
    (∀ r : OperandReg,
      HostStores (asks State.reset [.store (regOffset (operandReg r)) 8 5]) (operandReg r) 5 [])
    ∧ (∀ r : Reg, HostLoads (asks State.reset [.load (regOffset r) 8]) r []) := by
  refine ⟨fun r => ⟨rfl, ?_⟩, fun r => ⟨rfl, ?_⟩⟩ <;> simp [asks, State.reset, configAtReset]

/-- RegisterAccess: FMIX and FP64 on registers not written since reset, with the step that completes;
a halted engine, a reserved word and an absent gate; and a store, a command and a reset, each of which
changes what is written. -/
theorem witness_unwritten :
    (∀ v ∈ [0x07#64, 0x91#64, 0x0F#64],
      HostStores (asks State.reset [.store 0 8 v]) .cmd v [] ∧ HostStores (asks halted [.store 0 8 v])
        .cmd v [])
    ∧ HostStores (asks (withLen claimedOnly 0 0) [.store 0 8 0x84]) .cmd 0x84 []
    ∧ decode 0x07 = .ok .fmix ∧ decode 0x91 = .ok .fp64 ∧ decode 0x84 = .ok .hash64
    ∧ (∀ i, decode 0x0F ≠ .ok i)
    ∧ gateHeld State.reset.cfg .fmix ∧ gateHeld State.reset.cfg .fp64 ∧ ¬ gateHeld claimedOnly .hash64
    ∧ State.reset.fault = false ∧ halted.fault = true
    ∧ (∃ t, step (asks State.reset [.store 0 8 0x07]) = .next t ∧ t.fault = false
        ∧ regUnwritten .r0 t ≠ regUnwritten .r0 State.reset)
    ∧ (∃ t, step (asks State.reset [.store 0x10 8 5]) = .next t
        ∧ regUnwritten .len t ≠ regUnwritten .len State.reset)
    ∧ (∃ t, step (asks (onBuffer abc 1 2) [.reset]) = .next t
        ∧ regUnwritten .x0 t ≠ regUnwritten .x0 (onBuffer abc 1 2)) := by
  refine ⟨fun v _ => ⟨⟨rfl, rfl⟩, ⟨rfl, rfl⟩⟩, ⟨rfl, rfl⟩, by decide, by decide, by decide, ?_, ?_, ?_,
    ?_, rfl, rfl, ⟨_, rfl, rfl, by decide⟩, ⟨_, rfl, by decide⟩, ⟨_, rfl, by decide⟩⟩
  · rw [show decode 0x0F = .error .reservedOpc by decide]
    exact fun i h => nomatch h
  all_goals rw [gateHeld_iff]; decide

/-- WaitTakesOneStep: a store to CMD with a WAIT behind it, and a WAIT at reset. -/
theorem witness_wait :
    HostStores (asks State.reset [.store 0 8 0, .wait]) .cmd 0 (.wait :: [])
    ∧ (∃ t, step (asks State.reset [.store 0 8 0, .wait]) = .next t)
    ∧ (asks State.reset [.wait]).pending = .wait :: [] ∧ State.reset.done = false
    ∧ State.reset.fault = false ∧ configAdmitted State.reset.cfg = true :=
  ⟨⟨rfl, rfl⟩, ⟨_, rfl⟩, rfl, rfl, rfl, rfl⟩

/-- HostMemoryStore: a store inside a readable buffer and one to the top byte of the space, which is
not admitted; after the second, with SRC there, FP64 meets the hypotheses of the last clause. -/
theorem witness_memStore :
    configAdmitted (onBuffer abc 1 2).cfg = true ∧ BufferIs (onBuffer abc 1 2) abc
    ∧ (asks (onBuffer abc 1 2) [.memStore 0x1001 7]).pending = .memStore 0x1001 7 :: []
    ∧ (Memory.read (onBuffer abc 1 2).mem 0x1001).isSome = true
    ∧ Memory.read (onBuffer abc 1 2).mem 0xFFFFFFFFFFFFFFFF = none
    ∧ (∃ t, step (asks (withLen capable 0xFFFFFFFFFFFFFFFF 1) [.memStore 0xFFFFFFFFFFFFFFFF 7])
          = .next t
        ∧ t.fault = false ∧ gateHeld t.cfg .fp64 ∧ lenHeld t.len.toNat .fp64
        ∧ Instr.fp64 ∉ registerOnly ∧ 0 < t.len.toNat
        ∧ Memory.read (withLen capable 0xFFFFFFFFFFFFFFFF 1).mem (t.src.toNat + 0) = none) := by
  refine ⟨rfl, sample_bufferIs rfl (by decide) _ _ _ _ _ _, rfl, by decide, by decide, _, rfl, rfl, ?_,
    ?_, by decide, by decide, by decide⟩
  · rw [gateHeld_iff]
    decide
  · intro d hd
    cases hd

/-- HostMemoryStore (R66, R68): a store inside the buffer `abc` makes it another buffer's bytes; one to
an address that is not admitted leaves the buffer there stuck. -/
theorem test_memStore :
    Memory.store (onBuffer abc 1 2).mem 0x1001 0x7A = Memory.writeBytes [] 0x1000 [0x61, 0x7A, 0x63]
    ∧ Memory.store (onBuffer abc 1 2).mem 0x1003 0x7A = (onBuffer abc 1 2).mem
    ∧ exec .fp64 { withLen capable 0x1003 1 with mem := Memory.store (onBuffer abc 1 2).mem 0x1003 7 }
      = .fault (.stuck .bufferNotAdmitted) := ⟨by decide, by decide, rfl⟩

/-- ResetOfTheEngine: a reset of a halted engine. -/
theorem witness_reset :
    configAdmitted halted.cfg = true
    ∧ (asks halted [.reset]).pending = .reset :: []
    ∧ (∃ t, step (asks halted [.reset]) = .next t ∧ t.fault = false) :=
  ⟨rfl, rfl, ⟨_, rfl, rfl⟩⟩

/-- SelectorsWithinTheClaim: claims with and without TE's gate, and within it SU's, SA's and
neither. -/
theorem witness_claims :
    (teGate.simd128 = true ∧ teGate.ptr64 = true)
    ∧ ¬ (suGate.simd128 = true ∧ suGate.ptr64 = true)
    ∧ ¬ (saGate.simd128 = true ∧ saGate.ptr64 = true)
    ∧ ¬ (noGate.simd128 = true ∧ noGate.ptr64 = true) := by decide

/-- The primitives (NopCompletes, Rotates, ByteSwaps, Fmix, MurCommand, ShiftMix, HashLen16s, Tweaks, WeakStep,
UoFamily): an engine that is not faulted; a rotate amount at each end of its range. -/
theorem witness_registerCommands :
    (regs 1 2 3 4 5 6).fault = false ∧ (0 < 32 ∧ 31 < 32) ∧ (0 < 64 ∧ 63 < 64) :=
  ⟨rfl, by decide, by decide⟩

/-- Fetch32, Fetch64: a buffer of exactly 4 and of 8 bytes, a last fetch at the end of 9, LEN just
too short, and two buffers that agree on 4 bytes only. -/
theorem witness_fetches :
    BufferAt 4 ∧ BufferAt 8 ∧ BufferAt 9 ∧ LenAt 3 ∧ LenAt 7
    ∧ (dataBuffer 4).take 4 = (dataBuffer 5).take 4 :=
  ⟨bufferAt _ (by decide), bufferAt _ (by decide), bufferAt _ (by decide), lenAt _ (by decide),
    lenAt _ (by decide), by decide +kernel⟩

/-- NaLen0to16: the ends of its sub-cases, which do not meet, and LEN 17. -/
theorem witness_naLen0to16 :
    BufferAt 0 ∧ BufferAt 1 ∧ BufferAt 3 ∧ BufferAt 4 ∧ BufferAt 7 ∧ BufferAt 8 ∧ BufferAt 16
    ∧ LenAt 17 := by
  refine ⟨bufferAt _ ?_, bufferAt _ ?_, bufferAt _ ?_, bufferAt _ ?_, bufferAt _ ?_, bufferAt _ ?_,
    bufferAt _ ?_, lenAt _ ?_⟩ <;> decide

/-- NaLen17to32 and NaLen33to64: the ends of the domains, and the LEN values just outside. -/
theorem witness_naLen17to64 :
    BufferAt 17 ∧ BufferAt 32 ∧ LenAt 16 ∧ LenAt 33 ∧ BufferAt 33 ∧ BufferAt 64 ∧ LenAt 32
    ∧ LenAt 65 := by
  refine ⟨bufferAt _ ?_, bufferAt _ ?_, lenAt _ ?_, lenAt _ ?_, bufferAt _ ?_, bufferAt _ ?_,
    lenAt _ ?_, lenAt _ ?_⟩ <;> decide

/-- WeakStep: 32 bytes exactly, LEN 31, and two buffers that agree on 32 bytes only. -/
theorem witness_weakStep :
    BufferAt 32 ∧ LenAt 31 ∧ (dataBuffer 32).take 32 = (dataBuffer 33).take 32 :=
  ⟨bufferAt _ (by decide), lenAt _ (by decide), by decide +kernel⟩

/-- KernelsAgreeWithTheFamily, NaFamily, UoFamily, XoFamily, CrossFamilyAgreement: each bucket's
first and last length. -/
theorem witness_buckets64 :
    BufferAt 0 ∧ BufferAt 16 ∧ BufferAt 17 ∧ BufferAt 32 ∧ BufferAt 33 ∧ BufferAt 64 ∧ BufferAt 65
    ∧ BufferAt 96 ∧ BufferAt 97 ∧ BufferAt 256 ∧ BufferAt 257 ∧ BufferAt 511 := by
  refine ⟨bufferAt _ ?_, bufferAt _ ?_, bufferAt _ ?_, bufferAt _ ?_, bufferAt _ ?_, bufferAt _ ?_,
    bufferAt _ ?_, bufferAt _ ?_, bufferAt _ ?_, bufferAt _ ?_, bufferAt _ ?_, bufferAt _ ?_⟩ <;>
    decide

/-- NaFamily: a buffer and its hash, for the clause on a seed equal to the hash. -/
theorem witness_naHash : naHash64 [] = some k2 := by decide +kernel

/-- XoKernels: the ends of the three domains, a fetch that ends the buffer, and LEN outside. -/
theorem witness_xoKernels :
    BufferAt 16 ∧ BufferAt 33 ∧ BufferAt 64 ∧ BufferAt 65 ∧ BufferAt 96 ∧ LenAt 15 ∧ LenAt 32
    ∧ LenAt 65 ∧ LenAt 64 ∧ LenAt 97 ∧ 32 + 32 ≤ (dataBuffer 64).length := by
  refine ⟨bufferAt _ ?_, bufferAt _ ?_, bufferAt _ ?_, bufferAt _ ?_, bufferAt _ ?_, lenAt _ ?_,
    lenAt _ ?_, lenAt _ ?_, lenAt _ ?_, lenAt _ ?_, (dataBuffer_length 64).ge⟩ <;> decide

/-- MkKernels, CcKernels: the ends of the three domains, and LEN outside. -/
theorem witness_kernels32 :
    BufferAt 0 ∧ BufferAt 4 ∧ BufferAt 5 ∧ BufferAt 12 ∧ BufferAt 13 ∧ BufferAt 24 ∧ LenAt 5
    ∧ LenAt 4 ∧ LenAt 13 ∧ LenAt 12 ∧ LenAt 25 := by
  refine ⟨bufferAt _ ?_, bufferAt _ ?_, bufferAt _ ?_, bufferAt _ ?_, bufferAt _ ?_, bufferAt _ ?_,
    lenAt _ ?_, lenAt _ ?_, lenAt _ ?_, lenAt _ ?_, lenAt _ ?_⟩ <;> decide

/-- CityMurmur: both ends of the short branch, the last length of the domain, and LEN 128. -/
theorem witness_cityMurmur :
    BufferAt 0 ∧ BufferAt 7 ∧ BufferAt 8 ∧ BufferAt 16 ∧ BufferAt 127 ∧ LenAt 128 := by
  refine ⟨bufferAt _ ?_, bufferAt _ ?_, bufferAt _ ?_, bufferAt _ ?_, bufferAt _ ?_, lenAt _ ?_⟩ <;>
    decide

/-- The long paths: the first length of each, and the lengths where the number of passes changes, of
CityMurmur, of NaFamily and UoFamily, of MkFamily and Cc32Family, and of Cc128Family with no tail
chunk, with one, with two and with four. -/
theorem witness_longPaths :
    (∀ n ∈ [17, 32, 33], BufferAt n) ∧ (∀ n ∈ [65, 128, 129, 193], BufferAt n)
    ∧ (∀ n ∈ [25, 40, 41, 45], BufferAt n)
    ∧ (∀ n ∈ [127, 128, 129, 160, 161, 255, 256, 257], BufferAt n) := by
  refine ⟨?_, ?_, ?_, ?_⟩ <;> intro n hn <;> refine bufferAt n ?_ <;> simp at hn <;> omega

/-- TeAndNtFamilies, SuAndSaFamilies: the last length of the shared path and the first of the opaque
one; hardware with the capabilities, and without each. -/
theorem witness_gatedFamilies :
    BufferAt 511 ∧ BufferAt 512 ∧ BufferAt 24 ∧ BufferAt 25 ∧ BufferAt 4 ∧ BufferAt 5 ∧ BufferAt 12
    ∧ BufferAt 13
    ∧ (onBuffer (dataBuffer 25) 1 2).cfg.hwcap = allCaps
    ∧ ¬ (noCaps.simd128 = true ∧ noCaps.ptr64 = true)
    ∧ ¬ (teGate.simd128 = true ∧ teGate.crc32 = true)
    ∧ ¬ (saGate.simd128 = true ∧ saGate.crc32 = true ∧ saGate.aes = true) := by
  refine ⟨bufferAt _ ?_, bufferAt _ ?_, bufferAt _ ?_, bufferAt _ ?_, bufferAt _ ?_, bufferAt _ ?_,
    bufferAt _ ?_, bufferAt _ ?_, rfl, ?_, ?_, ?_⟩ <;> decide

/-- MkFamily, Cc32Family, Cc128Family: each bucket's first and last length. -/
theorem witness_longFamilies :
    BufferAt 4 ∧ BufferAt 5 ∧ BufferAt 12 ∧ BufferAt 13 ∧ BufferAt 24 ∧ BufferAt 25 ∧ BufferAt 36
    ∧ BufferAt 15 ∧ BufferAt 16 ∧ BufferAt 127 ∧ BufferAt 128 := by
  refine ⟨bufferAt _ ?_, bufferAt _ ?_, bufferAt _ ?_, bufferAt _ ?_, bufferAt _ ?_, bufferAt _ ?_,
    bufferAt _ ?_, bufferAt _ ?_, bufferAt _ ?_, bufferAt _ ?_, bufferAt _ ?_⟩ <;> decide

/-- Hash32Commands, Hash64Commands, Hash128Commands, Fingerprints: DEBUG 0 and DEBUG 1, MK selected,
and the lengths where TE and the seeded forms part from XO and NA. -/
theorem witness_hashCommands :
    BufferAt 511 ∧ BufferAt 512 ∧ BufferAt 64 ∧ BufferAt 65
    ∧ BufferIs (sample debugging abc 1 2 0 0 0 0) abc ∧ capable.sel32 = .mk
    ∧ capable.debug = false ∧ debugging.debug = true :=
  ⟨bufferAt _ (by decide), bufferAt _ (by decide), bufferAt _ (by decide), bufferAt _ (by decide),
    sample_bufferIs rfl (by decide) _ _ _ _ _ _, rfl, rfl, rfl⟩

/-- FingerprintStability: two instances that differ in every parameter and register, with one
buffer. -/
theorem witness_fingerprintStability :
    Instr.fp64 ∈ [Instr.fp32, .fp64, .fp128]
    ∧ (sample debugging abc 1 2 3 4 5 6).fault = false
    ∧ (sample claimedOnly abc 9 8 7 6 5 4).fault = false
    ∧ BufferIs (sample debugging abc 1 2 3 4 5 6) abc
    ∧ BufferIs (sample claimedOnly abc 9 8 7 6 5 4) abc :=
  ⟨by decide, rfl, rfl, sample_bufferIs rfl (by decide) _ _ _ _ _ _,
    sample_bufferIs rfl (by decide) _ _ _ _ _ _⟩

/-- DebugTweakStage: HASH64 on "abc" with DEBUG 0, and a HASH128 and a Fingerprint beside it. -/
theorem witness_debugTweakStage :
    (onBuffer abc 1 2).fault = false
    ∧ exec .hash64 (onBuffer abc 1 2)
      = .next (completedWith Instr.hash64.opc 0x24A5B3A074E7F369 0 (onBuffer abc 1 2))
    ∧ exec .hash32 (onBuffer abc 1 2)
      = .next (completedWith Instr.hash32.opc 0x2F635EC7 0 (onBuffer abc 1 2))
    ∧ exec .hash128 (onBuffer abc 1 2)
      = .next (completedWith Instr.hash128.opc 0x3980B2AFD2126C04 0xA085F09013029E45
          (onBuffer abc 1 2))
    ∧ exec .fp32 (onBuffer abc 1 2)
      = .next (completedWith Instr.fp32.opc 0x2F635EC7 0 (onBuffer abc 1 2)) := by
  refine ⟨rfl, ?_, ?_, ?_, ?_⟩ <;> rfl

end Sys2Proof.Tests
end

/-! # The machine's state and its register window

Settles the statements of 10_state.md. The layer of facts comes first: the width of each command's
result, the part of the state a command reads, the bits of STATUS, CAP and CONFIG, what each access
does to the registers and to `Legal`; the settled statements follow. -/

namespace Sys2Proof.Proofs

open Sys2Proof.Machine Sys2Proof.Laws

/-! ## The width of a command's result (R36) -/

/-- The widths a result can have. -/
inductive Width where
  | none | w32 | w64 | pair
  deriving DecidableEq

/-- The width of a result. -/
def widthOf : Result → Width
  | .none => .none
  | .w32 _ => .w32
  | .w64 _ => .w64
  | .pair _ => .pair

/-- The width of each command's result, by its rule (files 40 to 47). -/
def resultWidth : Instr → Width
  | .nop => .none
  | .fetch32 | .rot32 | .bswap32 | .fmix | .mur | .tweak32 | .mkLen0to4 | .mkLen5to12
  | .mkLen13to24 | .ccLen0to4 | .ccLen5to12 | .ccLen13to24 | .ntH32 | .ntH32s | .mkH32 | .mkH32s
  | .suH32 | .suH32s | .saH32 | .saH32s | .ccH32 | .ccH32s | .hash32 | .hash32s | .fp32 => .w32
  | .tweak128 | .weak32 | .weak32m | .ccCitymurmur | .ccH128 | .ccH128s | .hash128 | .hash128s
  | .fp128 => .pair
  | _ => .w64

/-- Every value of `o` has width `w`. -/
def HasWidth (w : Width) (o : Option Result) : Prop := ∀ r, o = some r → widthOf r = w

theorem hasWidth_some (r : Result) : HasWidth (widthOf r) (some r) := by
  rintro _ ⟨⟩
  rfl

theorem hasWidth_map {α : Type} {w : Width} {f : α → Result} (o : Option α)
    (h : ∀ a, widthOf (f a) = w) : HasWidth w (o.map f) := by
  intro r hr
  obtain ⟨a, -, rfl⟩ := Option.map_eq_some_iff.mp hr
  exact h a

/-- Each command's datapath computes a result of the command's width. -/
theorem bodyOf_hasWidth (s : State) (i : Instr) (B : Bytes) :
    HasWidth (resultWidth i) (bodyOf s i B) := by
  cases i
  case nop | rot32 | rot64 | bswap32 | bswap64 | fmix | mur | shiftmix | hl16 | hl16m | tweak32
    | tweak64 | tweak128 | weak32 | uoH | mkLen0to4 | ccLen0to4 => exact hasWidth_some _
  all_goals exact hasWidth_map _ fun _ => rfl

/-- Only NOP has no result. -/
theorem resultWidth_ne_none {i : Instr} (h : i ≠ .nop) : resultWidth i ≠ .none := by
  cases i
  case nop => exact absurd rfl h
  all_goals nofun

theorem mem_of_resultWidth_pair {i : Instr} (h : resultWidth i = .pair) :
    i ∈ [.tweak128, .weak32, .weak32m, .ccCitymurmur, .ccH128, .ccH128s, .hash128, .hash128s,
      .fp128] := by
  revert h
  cases i <;> decide

theorem resultWidth_w32_of_mem {i : Instr}
    (h : i ∈ [.fetch32, .rot32, .bswap32, .fmix, .mur, .tweak32, .mkLen0to4, .mkLen5to12,
      .mkLen13to24, .ccLen0to4, .ccLen5to12, .ccLen13to24, .ntH32, .ntH32s, .mkH32, .mkH32s,
      .suH32, .suH32s, .saH32, .saH32s, .ccH32, .ccH32s, .hash32, .hash32s, .fp32]) :
    resultWidth i = .w32 := by
  revert h
  cases i <;> decide

/-- What R0 and R1 take of a result (R36); NOP's takes none and has no use for them. -/
def resultWords : Result → U64 × U64
  | .none => (0, 0)
  | .w32 h => (zext64 h, 0)
  | .w64 h => (h, 0)
  | .pair p => p

/-- A result that is not a pair leaves 0 in R1. -/
theorem resultWords_snd {r : Result} (h : widthOf r ≠ .pair) : (resultWords r).2 = 0 := by
  cases r with
  | pair p => exact absurd rfl h
  | _ => rfl

/-- A 32-bit result leaves bits 63:32 of R0 zero. -/
theorem resultWords_fst_lt {r : Result} (h : widthOf r = .w32) :
    (resultWords r).1.toNat < 2 ^ 32 := by
  cases r with
  | w32 v =>
    have hv := v.isLt
    simp only [resultWords, zext64, BitVec.toNat_setWidth]
    omega
  | _ => cases h

/-- Completion with a result is the state claims name by the words of that result. -/
theorem complete_eq_completedWith {r : Result} (op : Byte) (s : State) (h : widthOf r ≠ .none) :
    complete r (startIssue op s) = completedWith op (resultWords r).1 (resultWords r).2 s := by
  cases r with
  | none => exact absurd rfl h
  | _ => rfl

/-! ## What a command reads (R45) -/

/-- The part of the state `i`'s datapath reads: the configuration and the operand registers that
R84's reads column gives it. -/
def readPart (i : Instr) (s : State) : State :=
  let r := instrReads i
  { State.reset with
    cfg := s.cfg
    x0 := if r.x0 then s.x0 else 0
    x1 := if r.x1 then s.x1 else 0
    x2 := if r.x2 then s.x2 else 0
    x3 := if r.x3 then s.x3 else 0
    x4 := if r.x4 then s.x4 else 0
    x5 := if r.x5 then s.x5 else 0 }

/-- A datapath computes from the part of the state it reads. -/
theorem bodyOf_readPart (s : State) (i : Instr) (B : Bytes) :
    bodyOf (readPart i s) i B = bodyOf s i B := by
  cases i <;> rfl

/-- A register that must agree when it is read has the same part read of it. -/
theorem readOperand_congr {b : Bool} {x y : U64} (h : b = true → x = y) :
    (if b then y else 0) = if b then x else 0 :=
  ite_congr rfl (fun hb => (h hb).symm) fun _ => rfl

/-- States that agree on a command's operands and on the configuration agree on what it reads. -/
theorem readPart_congr {i : Instr} {s s' : State} (hc : s'.cfg = s.cfg)
    (h : sameOperands i s s') : readPart i s' = readPart i s := by
  obtain ⟨h0, h1, h2, h3, h4, h5⟩ := h
  simp only [readPart, hc, State.mk.injEq, true_and, and_true]
  exact ⟨readOperand_congr h0, readOperand_congr h1, readOperand_congr h2, readOperand_congr h3,
    readOperand_congr h4, readOperand_congr h5⟩

/-- States that agree on a command's operands and on the configuration have the same datapath. -/
theorem bodyOf_congr {i : Instr} {s s' : State} (hc : s'.cfg = s.cfg) (h : sameOperands i s s')
    (B : Bytes) : bodyOf s' i B = bodyOf s i B := by
  rw [← bodyOf_readPart s', readPart_congr hc h, bodyOf_readPart]

/-- A command that reads no buffer accepts every LEN (R84). -/
theorem instrDomain_of_no_buffer {i : Instr} (h : (instrReads i).buffer = false) (n : Nat) :
    instrDomain n i = true := by
  cases i
  case nop | rot32 | rot64 | bswap32 | bswap64 | fmix | mur | shiftmix | hl16 | hl16m | tweak32
    | tweak64 | tweak128 | weak32 | uoH => rfl
  all_goals cases h

/-- A command that reads the buffer reads what the state's buffer holds. -/
theorem commandBuffer_of_bufferIs {i : Instr} {s : State} {B : Bytes}
    (hb : (instrReads i).buffer = true) (hB : BufferIs s B) : commandBuffer i s = .next B := by
  simp [commandBuffer, hb, (readBuffer_next_iff s B).mpr hB]

/-- A command that reads no buffer computes from no byte. -/
theorem commandBuffer_of_no_buffer {i : Instr} (s : State) (hb : (instrReads i).buffer = false) :
    commandBuffer i s = .next [] := by
  simp [commandBuffer, hb]

/-- Engines with one buffer agree, for a command that reads it, on whether LEN is in the domain and
on the bytes read; a command that reads none does not look. -/
theorem domain_and_buffer_agree {i : Instr} {s s' : State}
    (h : i ∉ registerOnly → ∃ B, BufferIs s B ∧ BufferIs s' B) :
    instrDomain s'.len.toNat i = instrDomain s.len.toNat i
      ∧ ∀ B, commandBuffer i s = .next B → commandBuffer i s' = .next B := by
  cases hb : (instrReads i).buffer with
  | false => simp [instrDomain_of_no_buffer hb, commandBuffer_of_no_buffer _ hb]
  | true =>
    obtain ⟨B, hB, hB'⟩ := h (by simp [registerOnly_iff, hb])
    rw [← hB.1, ← hB'.1, commandBuffer_of_bufferIs hb hB, commandBuffer_of_bufferIs hb hB']
    exact ⟨rfl, fun _ => id⟩

/-! ## Completion of a command past its checks (R87) -/

/-- A command that reads the buffer, or none, has a value on what it reads once LEN is in its
domain. -/
theorem bodyOf_ready {i : Instr} {s : State} (hd : instrDomain s.len.toNat i = true)
    (hB : i ∉ registerOnly → ∃ B, BufferIs s B) :
    ∃ B r, commandBuffer i s = .next B ∧ bodyOf s i B = some r := by
  cases hb : (instrReads i).buffer with
  | false =>
    obtain ⟨r, hr⟩ := bodyOf_registers s hb
    exact ⟨[], r, commandBuffer_of_no_buffer s hb, hr⟩
  | true =>
    obtain ⟨B, hB⟩ := hB (by simp [registerOnly_iff, hb])
    obtain ⟨r, hr⟩ := bodyOf_buffer s (B := B) hb (by rw [hB.1]; exact hd)
    exact ⟨B, r, commandBuffer_of_bufferIs hb hB, hr⟩

/-- A command past its checks completes with its datapath's result. -/
theorem exec_complete {i : Instr} {s : State} {B : Bytes} {r : Result} (hf : s.fault = false)
    (hg : capSubset (instrGate s.cfg i) s.cfg.hwcap = true)
    (hd : instrDomain s.len.toNat i = true) (hB : commandBuffer i s = .next B)
    (hr : bodyOf s i B = some r) : exec i s = .next (complete r (startIssue i.opc s)) := by
  rw [exec_eq_issue]
  exact issue_complete hf hg hd hB hr

/-- A command other than NOP that answers a next state on an engine not halted fails its gate check,
fails its domain check, or completes with its datapath's words. -/
theorem exec_next_outcome {i : Instr} {s t : State} (hi : i ≠ .nop) (hf : s.fault = false)
    (h : exec i s = .next t) :
    (capSubset (instrGate s.cfg i) s.cfg.hwcap = false ∧ t = faultedWith i.opc 2 s)
    ∨ (capSubset (instrGate s.cfg i) s.cfg.hwcap = true ∧ instrDomain s.len.toNat i = false
        ∧ t = faultedWith i.opc 3 s)
    ∨ (capSubset (instrGate s.cfg i) s.cfg.hwcap = true ∧ instrDomain s.len.toNat i = true
        ∧ ∃ B r, commandBuffer i s = .next B ∧ bodyOf s i B = some r
        ∧ t = completedWith i.opc (resultWords r).1 (resultWords r).2 s) := by
  rw [exec_eq_issue] at h
  rcases issue_next_cases h with ⟨hf', -⟩ | ⟨-, hg, rfl⟩ | ⟨-, hg, hd, rfl⟩
    | ⟨-, hg, hd, B, r, hB, hr, rfl⟩
  · simp [hf] at hf'
  · exact .inl ⟨hg, rfl⟩
  · exact .inr (.inl ⟨hg, hd, rfl⟩)
  · refine .inr (.inr ⟨hg, hd, B, r, hB, hr, complete_eq_completedWith _ _ ?_⟩)
    rw [bodyOf_hasWidth s i B r hr]
    exact resultWidth_ne_none hi

/-! ## The words of STATUS, CAP and CONFIG (R37, R38, R39) -/

/-- A field of `n` bits placed at bit `m` of a 64-bit word holds the bits `m` to `m + n - 1`. -/
theorem getLsbD_field {n m : Nat} (x : BitVec n) (h : m + n ≤ 64) (k : Nat) :
    (x.setWidth 64 <<< m).getLsbD k = (decide (m ≤ k) && x.getLsbD (k - m)) := by
  simp only [BitVec.getLsbD_shiftLeft, BitVec.getLsbD_setWidth]
  by_cases hk : k < m + n
  · grind
  · simp [BitVec.getLsbD_of_ge x (k - m) (by omega)]

theorem getLsbD_bit (b : Bool) (k : Nat) : (bit b).getLsbD k = (decide (k = 0) && b) := by
  cases b <;> simp [bit, BitVec.getLsbD_one]

theorem bit_eq_field (b : Bool) : bit b = (BitVec.ofBool b).setWidth 64 := by
  cases b <;> rfl

/-- A flag placed at bit `m` of a 64-bit word is that bit and no other. -/
theorem getLsbD_flag {m : Nat} (b : Bool) (h : m < 64) (k : Nat) :
    (bit b <<< m).getLsbD k = (decide (k = m) && b) := by
  rw [bit_eq_field, getLsbD_field _ (by omega)]
  rcases Nat.lt_trichotomy k m with hk | rfl | hk
  · simp [Nat.not_le.mpr hk, hk.ne]
  · simp
  · simp [BitVec.getLsbD_of_ge (BitVec.ofBool b) (k - m) (by omega), hk.ne']

/-- The bits of STATUS: DONE, FAULT, FCODE from bit 8 and LAST_OPC from bit 16. -/
theorem getLsbD_statusWord (s : State) (k : Nat) :
    (statusWord s).getLsbD k
      = ((decide (k = 0) && s.done) || (decide (k = 1) && s.fault)
        || (decide (8 ≤ k) && s.fcode.getLsbD (k - 8))
        || (decide (16 ≤ k) && s.lastOpc.getLsbD (k - 16))) := by
  simp only [statusWord, BitVec.getLsbD_or, getLsbD_bit, getLsbD_flag _ (show 1 < 64 by decide),
    getLsbD_field _ (show 8 + 4 ≤ 64 by decide), getLsbD_field _ (show 16 + 8 ≤ 64 by decide)]

theorem getLsbD_capWord (c : CapSet) (k : Nat) :
    (capWord c).getLsbD k
      = ((decide (k = 0) && c.simd128) || (decide (k = 1) && c.crc32)
        || (decide (k = 2) && c.aes) || (decide (k = 3) && c.ptr64)) := by
  simp only [capWord, BitVec.getLsbD_or, getLsbD_bit, getLsbD_flag _ (show 1 < 64 by decide),
    getLsbD_flag _ (show 2 < 64 by decide), getLsbD_flag _ (show 3 < 64 by decide)]

theorem sel32Code_eq_field (x : Sel32) : sel32Code x = ((sel32Code x).setWidth 2).setWidth 64 := by
  cases x <;> rfl
theorem sel64Code_eq_field (x : Sel64) : sel64Code x = ((sel64Code x).setWidth 1).setWidth 64 := by
  cases x <;> rfl
theorem sel64sCode_eq_field (x : Sel64S) :
    sel64sCode x = ((sel64sCode x).setWidth 2).setWidth 64 := by
  cases x <;> rfl

theorem getLsbD_configWord (c : CoreConfig) (k : Nat) :
    (configWord c).getLsbD k
      = ((decide (k = 0) && c.debug)
        || (decide (8 ≤ k) && ((sel32Code c.sel32).setWidth 2).getLsbD (k - 8))
        || (decide (12 ≤ k) && ((sel64Code c.sel64).setWidth 1).getLsbD (k - 12))
        || (decide (16 ≤ k) && ((sel64sCode c.sel64s).setWidth 2).getLsbD (k - 16))) := by
  rw [configWord, sel32Code_eq_field, sel64Code_eq_field, sel64sCode_eq_field]
  simp only [BitVec.getLsbD_or, getLsbD_bit, getLsbD_field _ (show 8 + 2 ≤ 64 by decide),
    getLsbD_field _ (show 12 + 1 ≤ 64 by decide), getLsbD_field _ (show 16 + 2 ≤ 64 by decide)]
  rw [← sel32Code_eq_field, ← sel64Code_eq_field, ← sel64sCode_eq_field]

/-- Bits `m` to `m + n - 1` of a word are the field they agree with bit by bit. -/
theorem extractLsb'_eq_of_getLsbD {m n : Nat} {w : U64} {x : BitVec n}
    (h : ∀ i < n, w.getLsbD (m + i) = x.getLsbD i) : w.extractLsb' m n = x := by
  refine BitVec.eq_of_getLsbD_eq fun i hi => ?_
  simp [hi, h i hi]

theorem statusWord_done (s : State) : (statusWord s).getLsbD 0 = s.done := by
  simp [getLsbD_statusWord, -BitVec.getLsbD_eq_getElem]

theorem statusWord_fault (s : State) : (statusWord s).getLsbD 1 = s.fault := by
  simp [getLsbD_statusWord, -BitVec.getLsbD_eq_getElem]

theorem statusWord_fcode (s : State) : (statusWord s).extractLsb' 8 4 = s.fcode := by
  refine extractLsb'_eq_of_getLsbD fun i hi => ?_
  have h16 : ¬ 16 ≤ 8 + i := by omega
  simp [getLsbD_statusWord, h16, show 8 + i ≠ 1 by omega]

theorem statusWord_lastOpc (s : State) : (statusWord s).extractLsb' 16 8 = s.lastOpc := by
  refine extractLsb'_eq_of_getLsbD fun i hi => ?_
  have hf : s.fcode.getLsbD (16 + i - 8) = false := BitVec.getLsbD_of_ge _ _ (by omega)
  simp [getLsbD_statusWord, hf, show 16 + i ≠ 1 by omega]

theorem statusWord_elsewhere (s : State) {k : Nat}
    (h : 2 ≤ k ∧ k < 8 ∨ 12 ≤ k ∧ k < 16 ∨ 24 ≤ k) : (statusWord s).getLsbD k = false := by
  have hf : 12 ≤ k → s.fcode.getLsbD (k - 8) = false := fun h => BitVec.getLsbD_of_ge _ _ (by omega)
  have hl : 24 ≤ k → s.lastOpc.getLsbD (k - 16) = false :=
    fun h => BitVec.getLsbD_of_ge _ _ (by omega)
  rw [getLsbD_statusWord]
  grind

theorem configWord_debug (c : CoreConfig) : (configWord c).getLsbD 0 = c.debug := by
  simp [getLsbD_configWord, -BitVec.getLsbD_eq_getElem]

theorem configWord_sel32 (c : CoreConfig) :
    (configWord c).extractLsb' 8 2 = (sel32Code c.sel32).setWidth 2 := by
  refine extractLsb'_eq_of_getLsbD fun i hi => ?_
  rw [getLsbD_configWord]
  grind

theorem configWord_sel64 (c : CoreConfig) :
    (configWord c).getLsbD 12 = (sel64Code c.sel64).getLsbD 0 := by
  simp [getLsbD_configWord, -BitVec.getLsbD_eq_getElem]

theorem configWord_sel64s (c : CoreConfig) :
    (configWord c).extractLsb' 16 2 = (sel64sCode c.sel64s).setWidth 2 := by
  refine extractLsb'_eq_of_getLsbD fun i hi => ?_
  rw [getLsbD_configWord]
  grind

theorem configWord_elsewhere (c : CoreConfig) {k : Nat} (h : k ∉ [0, 8, 9, 12, 16, 17]) :
    (configWord c).getLsbD k = false := by
  simp only [List.mem_cons, List.not_mem_nil, or_false, not_or] at h
  rw [getLsbD_configWord]
  grind

/-- CAP reads the four claimed capabilities and 0 above. -/
theorem capWord_bits (c : CapSet) :
    (capWord c).getLsbD 0 = c.simd128 ∧ (capWord c).getLsbD 1 = c.crc32
      ∧ (capWord c).getLsbD 2 = c.aes ∧ (capWord c).getLsbD 3 = c.ptr64
      ∧ ∀ k, 4 ≤ k → (capWord c).getLsbD k = false := by
  simp only [getLsbD_capWord]
  refine ⟨by simp, by simp, by simp, by simp, fun k hk => ?_⟩
  simp [show k ≠ 0 by omega, show k ≠ 1 by omega, show k ≠ 2 by omega, show k ≠ 3 by omega]

/-! ## Legal states (R36, R39, R310, R340, R346) -/

/-- `Legal` says nothing of the host's side, the operand registers, LAST_OPC or the values in R0 and
R1. -/
theorem legal_congr {s t : State} (hm : t.mem = s.mem) (hc : t.cfg = s.cfg)
    (hf : t.fault = s.fault) (hk : t.fcode = s.fcode) (hd : t.done = s.done)
    (h0 : t.written.r0 = s.written.r0) (h1 : t.written.r1 = s.written.r1) (h : Legal s) :
    Legal t := by
  unfold Legal at h ⊢
  rwa [hm, hc, hf, hk, hd, h0, h1]

theorem legal_pending {s : State} (h : Legal s) (rest : List HostAction) :
    Legal { s with pending := rest } :=
  legal_congr rfl rfl rfl rfl rfl rfl rfl h

theorem legal_writeReg {s : State} (h : Legal s) (r : Reg) (v : U64) : Legal (writeReg r v s) :=
  have ⟨h0, h1⟩ := writeReg_written_results r v s
  legal_congr (by simp) (by simp) (by simp) (by simp) (by simp) h0 h1 h

theorem legal_loadReg {s : State} (h : Legal s) (r : Reg) : Legal (loadReg r s) :=
  legal_congr rfl rfl rfl rfl rfl rfl rfl h

/-- A fault of one of R340's three codes leaves a legal state (R346). -/
theorem legal_faultedWith {s : State} (h : Legal s) (op : Byte) {c : BitVec 4}
    (hc : c = 1 ∨ c = 2 ∨ c = 3) : Legal (faultedWith op c s) := by
  obtain ⟨hm, ha, -, -, -, hw⟩ := h
  have hcode : c ≠ 0 ∧ c.toNat ≤ 3 := by rcases hc with rfl | rfl | rfl <;> decide
  exact ⟨hm, ha, ⟨fun _ => hcode.1, fun _ => rfl⟩, hcode.2, fun _ => rfl, hw⟩

/-- A completion of an engine that is not halted leaves a legal state (R36, R87). -/
theorem legal_complete {s : State} (h : Legal s) (hf : s.fault = false) (op : Byte) (r : Result) :
    Legal (complete r (startIssue op s)) := by
  obtain ⟨hm, ha, hk, hle, -, hw⟩ := h
  refine ⟨by simpa using hm, by simpa using ha, by simpa using hk, by simpa using hle, ?_,
    complete_written_together r _ hw⟩
  simp [hf]

theorem legal_issueWord {s t : State} {v : U64} (h : Legal s) (hs : issueWord v s = .next t) :
    Legal t := by
  rcases issueWord_next_cases hs with ⟨-, rfl⟩ | ⟨-, c, hc, rfl⟩ | ⟨hf, r, rfl⟩
  · exact h
  · exact legal_faultedWith h _ hc
  · exact legal_complete h hf _ r

theorem legal_memStore {s : State} (h : Legal s) (a : Nat) (b : Byte) :
    Legal { s with mem := Memory.store s.mem a b } := by
  obtain ⟨hm, hrest⟩ := h
  exact ⟨memory_store_wf a b hm, hrest⟩

theorem legal_resetEngine {s : State} (h : Legal s) : Legal (resetEngine s) := by
  obtain ⟨hm, ha, -⟩ := h
  exact ⟨hm, ha, by simp, by simp, by simp, rfl⟩

/-! ## Host accesses to the window (R32, R33, R41) -/

/-- A store to a register that is neither CMD nor an operand register is ignored. -/
theorem step_store_ignored {s : State} {r : Reg} {v : U64} {rest : List HostAction}
    (hr : r ∈ [.r0, .r1, .status, .cap, .config] ∨ ∃ k, r = .reserved k)
    (h : HostStores s r v rest) : step s = .next { s with pending := rest } := by
  rw [step_store h]
  rcases hr with hr | ⟨k, rfl⟩
  · simp only [List.mem_cons, List.not_mem_nil, or_false] at hr
    rcases hr with rfl | rfl | rfl | rfl | rfl <;> rfl
  · rfl

theorem regOffset_mod_eight (r : Reg) : regOffset r % 8 = 0 := by
  cases r with
  | reserved k => simp only [regOffset]; omega
  | _ => rfl

/-- With REG_BASE a multiple of 8, an access that is not 8 bytes at a multiple of 8 reaches no
register. -/
theorem windowReg_unaligned {base addr bytes : Nat} (hb : base % 8 = 0)
    (h : ¬ (bytes = 8 ∧ addr % 8 = 0)) : windowReg base addr bytes = none := by
  cases hw : windowReg base addr bytes with
  | none => rfl
  | some r =>
    obtain ⟨hbytes, haddr⟩ := windowReg_some hw
    have hoff := regOffset_mod_eight r
    exact absurd ⟨hbytes, by omega⟩ h

theorem operandReg_ne_cmd (r : OperandReg) : operandReg r ≠ .cmd := by
  cases r <;> nofun

/-- A register that is neither CMD nor an operand register ignores a store (R41). -/
theorem writeReg_of_not_operand {r : Reg} (h : ∀ o, r ≠ operandReg o) (v : U64) (s : State) :
    writeReg r v s = s := by
  cases r
  case src => exact absurd rfl (h .src)
  case len => exact absurd rfl (h .len)
  case x0 => exact absurd rfl (h .x0)
  case x1 => exact absurd rfl (h .x1)
  case x2 => exact absurd rfl (h .x2)
  case x3 => exact absurd rfl (h .x3)
  case x4 => exact absurd rfl (h .x4)
  case x5 => exact absurd rfl (h .x5)
  all_goals rfl

/-- A store to an operand register changes neither what another register reads nor whether it is
unwritten. -/
theorem writeReg_operand_frame {r : Reg} {o : OperandReg} (h : r ≠ operandReg o) (v : U64)
    (s : State) :
    readReg r (writeReg (operandReg o) v s) = readReg r s
      ∧ regUnwritten r (writeReg (operandReg o) v s) = regUnwritten r s := by
  cases o <;> cases r <;> first | exact ⟨rfl, rfl⟩ | exact absurd rfl h

/-- A store to an operand register makes it written. -/
theorem regUnwritten_writeReg_same (o : OperandReg) (v : U64) (s : State) :
    regUnwritten (operandReg o) (writeReg (operandReg o) v s) = false := by
  cases o <;> rfl

/-- A step in which the host stores to an operand register. -/
theorem step_store_operand {s : State} {o : OperandReg} {v : U64} {rest : List HostAction}
    (h : HostStores s (operandReg o) v rest) :
    step s = .next (writeReg (operandReg o) v { s with pending := rest }) := by
  rw [step_store h, storeReg, if_neg (operandReg_ne_cmd o)]

/-- What a register reads does not depend on the accesses still to come. -/
theorem readReg_pending (r : Reg) (s : State) (rest : List HostAction) :
    readReg r { s with pending := rest } = readReg r s := by
  cases r <;> rfl

/-! ## Which registers are unwritten (R33, R341) -/

/-- The registers that have an unwritten state. -/
theorem mem_of_regUnwritten {r : Reg} {s : State} (h : regUnwritten r s = true) :
    r ∈ [.src, .len, .x0, .x1, .x2, .x3, .x4, .x5, .r0, .r1] := by
  cases r
  case cmd | status | cap | config | reserved => cases h
  all_goals decide

/-- A register unwritten in some state is unwritten after a reset. -/
theorem regUnwritten_resetEngine {r : Reg} {s : State} (h : regUnwritten r s = true)
    (s' : State) : regUnwritten r (resetEngine s') = true := by
  cases r
  case cmd | status | cap | config | reserved => cases h
  all_goals rfl

/-- Which registers are unwritten is a matter of the written flags. -/
theorem regUnwritten_congr {s t : State} (h : t.written = s.written) (r : Reg) :
    regUnwritten r t = regUnwritten r s := by
  cases r
  case cmd | status | cap | config | reserved => rfl
  all_goals simp only [regUnwritten, h]

/-- R0 and R1 are written by a completion with a result. -/
theorem regUnwritten_completedWith_results (op : Byte) (a b : U64) (s : State) :
    regUnwritten .r0 (completedWith op a b s) = false
      ∧ regUnwritten .r1 (completedWith op a b s) = false :=
  ⟨rfl, rfl⟩

/-- A completion changes which registers are unwritten only by writing R0 or R1. -/
theorem regUnwritten_complete_ne {r : Reg} {op : Byte} {res : Result} {s : State}
    (h : regUnwritten r (complete res (startIssue op s)) ≠ regUnwritten r s) :
    (r = .r0 ∨ r = .r1) ∧ regUnwritten r (complete res (startIssue op s)) = false := by
  by_cases hr : widthOf res = .none
  · cases res with
    | none => exact absurd (regUnwritten_congr rfl r) h
    | _ => cases hr
  · rw [complete_eq_completedWith op s hr] at h ⊢
    cases r
    case r0 => exact ⟨.inl rfl, rfl⟩
    case r1 => exact ⟨.inr rfl, rfl⟩
    all_goals exact absurd rfl h

/-- What a step that changes whether `r` is unwritten did: it reset the engine, stored to the
operand register `r`, or completed a command that wrote the result register `r`. -/
theorem step_regUnwritten_ne {s t : State} {r : Reg} (h : step s = .next t)
    (hne : regUnwritten r t ≠ regUnwritten r s) :
    (regUnwritten r t = true ∧ ∃ rest, s.pending = .reset :: rest)
    ∨ (regUnwritten r t = false
        ∧ ((∃ o v rest, r = operandReg o ∧ HostStores s r v rest)
          ∨ ((r = .r0 ∨ r = .r1) ∧ t.done = true ∧ ∃ v rest, HostStores s .cmd v rest))) := by
  obtain ⟨-, ⟨-, rfl⟩ | ⟨rest, ⟨v, hs, hi⟩ | ⟨r', v, -, hs, rfl⟩ | ⟨_, -, rfl⟩
    | ⟨-, ⟨-, -, rfl⟩ | ⟨-, rfl⟩⟩ | ⟨_, _, -, rfl⟩ | ⟨hp, rfl⟩⟩⟩ := step_next_cases h
  · exact absurd rfl hne
  · rcases issueWord_next_cases hi with ⟨-, rfl⟩ | ⟨-, c, -, rfl⟩ | ⟨-, res, rfl⟩
    · exact absurd (regUnwritten_congr rfl r) hne
    · exact absurd (regUnwritten_congr rfl r) hne
    · obtain ⟨hr, hw⟩ := regUnwritten_complete_ne hne
      exact .inr ⟨hw, .inr ⟨hr, complete_done _ _, v, rest, hs⟩⟩
  · by_cases ho : ∃ o, r' = operandReg o
    · obtain ⟨o, rfl⟩ := ho
      by_cases hr : r = operandReg o
      · subst hr
        exact .inr ⟨regUnwritten_writeReg_same o v _, .inl ⟨o, v, rest, rfl, hs⟩⟩
      · obtain ⟨-, hkept⟩ := writeReg_operand_frame hr v { s with pending := rest }
        exact absurd hkept hne
    · rw [writeReg_of_not_operand (not_exists.mp ho)] at hne
      exact absurd (regUnwritten_congr rfl r) hne
  · exact absurd (regUnwritten_congr rfl r) hne
  · exact absurd rfl hne
  · exact absurd (regUnwritten_congr rfl r) hne
  · exact absurd (regUnwritten_congr rfl r) hne
  · cases hu : regUnwritten r s with
    | true => exact .inl ⟨regUnwritten_resetEngine hu _, rest, hp⟩
    | false =>
      rw [hu, Bool.ne_false_iff] at hne
      exact .inl ⟨hne, rest, hp⟩

/-! ## Which accesses are `Unwritten` (R341) -/

/-- A statement about some operand register is about one of the eight. -/
theorem exists_operandReg {p : OperandReg → Prop} :
    (∃ r, p r) ↔ p .src ∨ p .len ∨ p .x0 ∨ p .x1 ∨ p .x2 ∨ p .x3 ∨ p .x4 ∨ p .x5 := by
  constructor
  · rintro ⟨r, hr⟩
    cases r <;> tauto
  · rintro (h | h | h | h | h | h | h | h) <;> exact ⟨_, h⟩

/-- A command reads an unwritten register, in R84's terms. -/
theorem readsUnwritten_iff (i : Instr) (s : State) :
    readsUnwritten i s = true
      ↔ ∃ r, commandReads i r ∧ regUnwritten (operandReg r) s = true := by
  simp only [exists_operandReg, commandReads_iff, operandReg, regUnwritten, readsUnwritten,
    Bool.or_eq_true, Bool.and_eq_true, Bool.not_and, and_or_left, or_assoc]

/-- A pending store to CMD is `Unwritten` as its word is. -/
theorem nextUnwritten_cmd {s : State} {v : U64} {rest : List HostAction}
    (h : HostStores s .cmd v rest) : nextUnwritten s = wordUnwritten v s := by
  simp [nextUnwritten, h.2]

/-- A pending load is `Unwritten` as its register is. -/
theorem nextUnwritten_load {s : State} {r : Reg} {rest : List HostAction}
    (h : HostLoads s r rest) : nextUnwritten s = regUnwritten r s := by
  simp [nextUnwritten, h.2]

/-- A listed word is `Unwritten` when it is not ignored, has its gate and reads an unwritten
register. -/
theorem wordUnwritten_of_decode {v : U64} {i : Instr} (h : decode v = .ok i) (s : State) :
    wordUnwritten v s
      = (!s.fault && capSubset (instrGate s.cfg i) s.cfg.hwcap && readsUnwritten i s) := by
  simp [wordUnwritten, h]

/-- A word that is not listed is not `Unwritten`. -/
theorem wordUnwritten_of_not_listed {v : U64} (h : ∀ i, decode v ≠ .ok i) (s : State) :
    wordUnwritten v s = false := by
  cases hd : decode v with
  | ok i => exact absurd hd (h i)
  | error e => simp [wordUnwritten, hd]

/-- An ignored word is not `Unwritten`. -/
theorem wordUnwritten_of_halted {s : State} (h : s.fault = true) (v : U64) :
    wordUnwritten v s = false := by
  cases hd : decode v with
  | ok i => simp [wordUnwritten_of_decode hd, h]
  | error e => simp [wordUnwritten, hd]

/-- A word whose gate is absent is not `Unwritten`. -/
theorem wordUnwritten_of_gate_absent {s : State} {v : U64} {i : Instr} (hd : decode v = .ok i)
    (hg : ¬ gateHeld s.cfg i) : wordUnwritten v s = false := by
  rw [gateHeld_iff, Bool.not_eq_true] at hg
  simp [wordUnwritten_of_decode hd, hg]

/-- Only a store to CMD and a load are ever `Unwritten`. -/
theorem pending_of_nextUnwritten {s : State} (h : nextUnwritten s = true) :
    ∃ rest, (∃ v, s.pending = .store (s.cfg.regBase + regOffset .cmd) 8 v :: rest)
      ∨ ∃ r, s.pending = .load (s.cfg.regBase + regOffset r) 8 :: rest := by
  unfold nextUnwritten at h
  split at h
  case h_1 addr bytes v rest hp =>
    simp only [Bool.and_eq_true, decide_eq_true_eq] at h
    obtain ⟨rfl, rfl⟩ := windowReg_some h.1
    exact ⟨rest, .inl ⟨v, hp⟩⟩
  case h_2 addr bytes rest hp =>
    split at h
    · rename_i r hr
      obtain ⟨rfl, rfl⟩ := windowReg_some hr
      exact ⟨rest, .inr ⟨r, hp⟩⟩
    · cases h
  all_goals cases h

/-- A CMD write of a listed word is the issue of its command: a halted engine ignores both. -/
theorem issueWord_of_decode {v : U64} {i : Instr} (hd : decode v = .ok i) (s : State) :
    issueWord v s = exec i s := by
  unfold issueWord
  split
  · rw [exec_eq_issue, issue_ignored ‹_›]
  · rw [hd]

/-- A CMD write of a command other than NOP that completes writes R0 and R1. -/
theorem results_written_of_complete {s t : State} {v : U64} {rest : List HostAction} {i : Instr}
    (h : HostStores s .cmd v rest) (hd : decode v = .ok i) (hi : i ≠ .nop) (hf : s.fault = false)
    (hs : step s = .next t) (ht : t.fault = false) :
    regUnwritten .r0 t = false ∧ regUnwritten .r1 t = false := by
  rw [step_cmd h, issueWord_of_decode hd] at hs
  rcases exec_next_outcome (s := { s with pending := rest }) hi hf hs with ⟨-, rfl⟩ | ⟨-, -, rfl⟩
    | ⟨-, -, B, r, -, -, rfl⟩
  · cases ht
  · cases ht
  · exact regUnwritten_completedWith_results _ _ _ _

/-! ## STATUS (R39) -/

/-- What STATUS reads is DONE, FAULT, FCODE and LAST_OPC. -/
theorem statusWord_congr {s t : State} (hd : t.done = s.done) (hf : t.fault = s.fault)
    (hc : t.fcode = s.fcode) (ho : t.lastOpc = s.lastOpc) : statusWord t = statusWord s := by
  simp only [statusWord, hd, hf, hc, ho]

/-- A step is a CMD write, is a reset, or keeps DONE, FAULT, FCODE and LAST_OPC. -/
theorem step_status_cases {s t : State} (h : step s = .next t) :
    (∃ v rest, HostStores s .cmd v rest ∧ issueWord v { s with pending := rest } = .next t)
    ∨ (∃ rest, s.pending = .reset :: rest)
    ∨ (t.done = s.done ∧ t.fault = s.fault ∧ t.fcode = s.fcode ∧ t.lastOpc = s.lastOpc) := by
  obtain ⟨-, ⟨-, rfl⟩ | ⟨rest, ⟨v, hs, hi⟩ | ⟨r, v, -, -, rfl⟩ | ⟨_, -, rfl⟩
    | ⟨-, ⟨-, -, rfl⟩ | ⟨-, rfl⟩⟩ | ⟨_, _, -, rfl⟩ | ⟨hp, rfl⟩⟩⟩ := step_next_cases h
  · exact .inr (.inr ⟨rfl, rfl, rfl, rfl⟩)
  · exact .inl ⟨v, rest, hs, hi⟩
  · exact .inr (.inr (by simp))
  · exact .inr (.inr ⟨rfl, rfl, rfl, rfl⟩)
  · exact .inr (.inr ⟨rfl, rfl, rfl, rfl⟩)
  · exact .inr (.inr ⟨rfl, rfl, rfl, rfl⟩)
  · exact .inr (.inr ⟨rfl, rfl, rfl, rfl⟩)
  · exact .inr (.inl ⟨rest, hp⟩)

/-- A CMD write to a halted engine leaves it halted (R347). -/
theorem issueWord_keeps_fault {s t : State} {v : U64} (hf : s.fault = true)
    (h : issueWord v s = .next t) : t.fault = true := by
  rcases issueWord_next_cases h with ⟨-, rfl⟩ | ⟨hf', -⟩ | ⟨hf', -⟩
  · exact hf
  · simp [hf] at hf'
  · simp [hf] at hf'

/-- Only a reset clears FAULT (R347). -/
theorem reset_of_fault_cleared {s t : State} (h : step s = .next t) (hs : s.fault = true)
    (ht : t.fault = false) : ∃ rest, s.pending = .reset :: rest := by
  rcases step_status_cases h with ⟨v, rest, -, hi⟩ | hr | ⟨-, hf, -, -⟩
  · have hkept := issueWord_keeps_fault (s := { s with pending := rest }) hs hi
    simp [ht] at hkept
  · exact hr
  · simp [hs, ht] at hf

/-- After a CMD write that is not ignored DONE is 1 exactly when it did not fault, and LAST_OPC is
the word's OPC field. -/
theorem issueWord_status {s t : State} {v : U64} (hf : s.fault = false)
    (h : issueWord v s = .next t) :
    (t.done = true ↔ t.fault = false) ∧ t.lastOpc = opcField v := by
  rcases issueWord_next_cases h with ⟨hf', -⟩ | ⟨-, c, -, rfl⟩ | ⟨-, r, rfl⟩
  · simp [hf] at hf'
  · simp [faultedWith]
  · simp [hf]

/-! ## The statements -/

/-- Settles O16: by the access the step performed. -/
theorem legalKept : Obligations.LegalKept := by
  intro s t hl h
  obtain ⟨-, ⟨-, rfl⟩ | ⟨rest, ⟨v, -, hi⟩ | ⟨r, v, -, -, rfl⟩ | ⟨r, -, rfl⟩
    | ⟨-, ⟨-, -, rfl⟩ | ⟨-, rfl⟩⟩ | ⟨a, b, -, rfl⟩ | ⟨-, rfl⟩⟩⟩ := step_next_cases h
  · exact hl
  · exact legal_issueWord (legal_pending hl rest) hi
  · exact legal_writeReg (legal_pending hl rest) r v
  · exact legal_loadReg (legal_pending hl rest) r
  · exact hl
  · exact legal_pending hl rest
  · exact legal_memStore (legal_pending hl rest) a.toNat b
  · exact legal_resetEngine (legal_pending hl rest)

/-- Settles O12: the conditions of the claim are the checks of the issue step, and the width of the
result says what R0 and R1 hold. -/
theorem readyCommandsComplete : Obligations.ReadyCommandsComplete := by
  intro s i hf hg hl hB
  have hg := (gateHeld_iff _ _).mp hg
  have hd := (lenHeld_iff s.len.isLt i).mp hl
  obtain ⟨B, r, hB, hr⟩ := bodyOf_ready hd hB
  have hw : widthOf r = resultWidth i := bodyOf_hasWidth s i B r hr
  have hx := exec_complete hf hg hd hB hr
  refine ⟨fun hi => ?_, fun hi => ⟨(resultWords r).1, (resultWords r).2, ?_, fun hp => ?_,
    fun h32 => ?_⟩⟩
  · subst hi
    obtain rfl : .none = r := Option.some.inj hr
    exact hx
  · rw [hx, complete_eq_completedWith _ _ (hw ▸ resultWidth_ne_none hi)]
  · exact resultWords_snd fun h => hp (mem_of_resultWidth_pair (hw ▸ h))
  · exact resultWords_fst_lt (hw.trans (resultWidth_w32_of_mem h32))

/-- Settles O13: by what a command that answers a next state can do. -/
theorem commandFrame : Obligations.CommandFrame := by
  intro s t i h
  rcases exec_next_cases h with ⟨-, rfl⟩ | ⟨-, c, -, rfl⟩ | ⟨hf, r, rfl⟩
  · simp
  · simp [faultedWith]
  · simp [hf]

/-- Settles O15: the checks agree with the configuration and LEN, and the datapath with the operands
and the buffer. -/
theorem resultDependsOnItsReads : Obligations.ResultDependsOnItsReads := by
  intro s s' t i hi hf hf' hc ho hbuf h
  obtain ⟨hdom, hbuf⟩ := domain_and_buffer_agree hbuf
  rcases exec_next_outcome hi hf h with ⟨hg, rfl⟩ | ⟨hg, hd, rfl⟩ | ⟨hg, hd, B, r, hB, hr, rfl⟩
  · exact .inl ⟨2, rfl, exec_misconfig i hf' (hc ▸ hg)⟩
  · exact .inl ⟨3, rfl, exec_domain i hf' (hc ▸ hg) (hdom.trans hd)⟩
  · refine .inr ⟨_, _, rfl, ?_⟩
    have hr' : bodyOf s' i B = some r := (bodyOf_congr hc ho B).trans hr
    have hw : widthOf r ≠ .none := bodyOf_hasWidth s i B r hr ▸ resultWidth_ne_none hi
    rw [exec_complete hf' (hc ▸ hg) (hdom.trans hd) (hbuf B hB) hr',
      complete_eq_completedWith _ _ hw]

/-- Settles O18: the bits of the word, and who can have changed its four fields. -/
theorem statusRegister : Obligations.StatusRegister := by
  refine ⟨fun s => ⟨?_, ?_, statusWord_fcode s, statusWord_lastOpc s,
    fun k hk => statusWord_elsewhere s hk, fun hl hf => ?_⟩, fun s t v rest h hf hs => ?_,
    fun s t h hne => ?_, fun s t h hs ht => reset_of_fault_cleared h hs ht⟩
  · exact statusWord_done s
  · exact statusWord_fault s
  · obtain ⟨-, -, hk, -⟩ := hl
    exact (statusWord_fcode s).trans (by simpa [hf] using hk)
  · rw [step_cmd h] at hs
    exact issueWord_status (s := { s with pending := rest }) hf hs
  · rcases step_status_cases h with ⟨v, rest, hs, -⟩ | hr | ⟨hd, hf, hc, ho⟩
    · exact .inl ⟨v, rest, hs⟩
    · exact .inr hr
    · exact absurd (statusWord_congr hd hf hc ho) hne

/-- Settles O20: only an aligned 64-bit access reaches a register, and these registers ignore it. -/
theorem otherHostAccesses : Obligations.OtherHostAccesses := by
  refine ⟨fun s r v rest hr h => step_store_ignored hr h, fun s k rest h => step_load h,
    fun s addr bytes v rest hc hb hu => ?_⟩
  have hw := windowReg_unaligned hb hu
  constructor
  all_goals
    intro hp
    rw [step_pending hc hp]
    simp [hostAction, hw]

/-- Settles O21: each clause is one of the facts above about the window or the written flags. -/
theorem registerAccess : Obligations.RegisterAccess := by
  refine ⟨fun s r v rest h => ⟨_, step_store_operand h, readReg_writeReg_operand r v _,
      regUnwritten_writeReg_same r v _, fun r' hr => ?_, by simp, by simp, by simp, by simp⟩,
    fun s r rest h => ⟨?_, nextUnwritten_load h⟩, fun s => rfl,
    fun s r => mem_of_regUnwritten,
    fun s t v rest i h hd hi hf hs ht => results_written_of_complete h hd hi hf hs ht,
    fun s t r h hne => ?_, fun s v rest i h hd hf hg => ?_, fun s v rest h hv => ?_,
    fun s h => pending_of_nextUnwritten h⟩
  · obtain ⟨hread, hwritten⟩ := writeReg_operand_frame hr v { s with pending := rest }
    exact ⟨hread.trans (readReg_pending r' s rest), hwritten.trans (regUnwritten_congr rfl r')⟩
  · rw [step_load h, loadReg, readReg_pending]
  · rcases step_regUnwritten_ne h hne with ⟨hu, hp⟩ | ⟨hu, hw⟩
    · exact ⟨fun _ => hp, fun hu' => by simp [hu] at hu'⟩
    · exact ⟨fun hu' => by simp [hu] at hu', fun _ => hw⟩
  · rw [nextUnwritten_cmd h, wordUnwritten_of_decode hd, hf, (gateHeld_iff _ _).mp hg,
      ← readsUnwritten_iff]
    simp
  · rw [nextUnwritten_cmd h]
    rcases hv with hf | hv | ⟨i, hd, hg⟩
    · exact wordUnwritten_of_halted hf v
    · exact wordUnwritten_of_not_listed hv s
    · exact wordUnwritten_of_gate_absent hd hg

/-- Settles O4: an access to CMD is the issue of the word it stores. -/
theorem stepRunsDecodedCommand : Obligations.StepRunsDecodedCommand := by
  intro s v rest i h hd
  rw [step_cmd h, issueWord_of_decode hd]

/-- Settles O17: reset's memory is empty and its STATUS fields are 0. -/
theorem legalAtReset : Obligations.LegalAtReset := by
  refine ⟨⟨List.Pairwise.nil, fun c hc => absurd hc List.not_mem_nil⟩, rfl, ?_, ?_, fun _ => rfl,
    rfl⟩
  all_goals decide

/-- Settles O19: the fields of the two words, selector by selector. -/
theorem capAndConfigWords : Obligations.CapAndConfigWords := by
  refine ⟨fun s => ⟨configWord_debug s.cfg, ?_, ?_, ?_, fun k hk => configWord_elsewhere s.cfg hk,
    ?_⟩, fun s r v rest hr h => step_store_ignored (.inl ?_) h⟩
  · refine (configWord_sel32 s.cfg).trans ?_
    cases s.cfg.sel32 <;> rfl
  · refine (configWord_sel64 s.cfg).trans ?_
    cases s.cfg.sel64 <;> rfl
  · refine (configWord_sel64s s.cfg).trans ?_
    cases s.cfg.sel64s <;> rfl
  · exact capWord_bits s.cfg.claimcap
  · rcases hr with rfl | rfl <;> decide

/-- Settles O26: nothing is pending at reset, so the engine idles. -/
theorem stateAfterReset : Obligations.StateAfterReset :=
  ⟨rfl, rfl, rfl, rfl, by decide, step_idle rfl rfl⟩

end Sys2Proof.Proofs

/-! # The input memory and the buffer read

Settles the statements of 20_memory.md. The facts come first, from the memory up: what a host store
does to a buffer, when a range touches side-effect memory, where the buffer read stops, what a
command past its checks does with the buffer read, and which steps can stop; the settled statements
follow. -/

namespace Sys2Proof.Proofs

open Sys2Proof.Machine Sys2Proof.Laws

/-! ## A host store and a buffer (R68) -/

/-- The bytes `B` from address `base` on, after a store of `b` to address `a`. -/
def bytesAfterStore (base a : Nat) (b : Byte) (B : Bytes) : Bytes :=
  B.mapIdx fun k c => if base + k = a then b else c

@[simp] theorem bytesAfterStore_length (base a : Nat) (b : Byte) (B : Bytes) :
    (bytesAfterStore base a b B).length = B.length :=
  List.length_mapIdx

theorem bytesAfterStore_getElem? (base a : Nat) (b : Byte) {B : Bytes} {k : Nat}
    (hk : k < B.length) :
    (bytesAfterStore base a b B)[k]? = if base + k = a then some b else B[k]? := by
  rw [bytesAfterStore, List.getElem?_mapIdx, List.getElem?_eq_getElem hk]
  exact apply_ite some _ _ _

/-- A host store leaves a readable buffer readable, with the byte at the stored address replaced. -/
theorem bufferIs_memStore {s : State} {B : Bytes} (h : BufferIs s B) (rest : List HostAction)
    (a : Nat) (b : Byte) :
    BufferIs { s with pending := rest, mem := Memory.store s.mem a b }
      (bytesAfterStore s.src.toNat a b B) := by
  obtain ⟨hlen, hwrap, hside, hread⟩ := h
  refine ⟨by simpa using hlen, hwrap, hside, fun k hk => ?_⟩
  have hk : k < B.length := by simpa using hk
  rw [memory_read_store, bytesAfterStore_getElem? _ _ _ hk, hread k hk]
  simp [hk]

/-! ## Admission (R66) -/

/-- A command, whatever it does, leaves the input memory as it is. -/
theorem issueWord_mem {v : U64} {s t : State} (h : issueWord v s = .next t) : t.mem = s.mem := by
  rcases issueWord_next_cases h with ⟨-, rfl⟩ | ⟨-, c, -, rfl⟩ | ⟨-, r, rfl⟩
  · rfl
  · rfl
  · simp

/-- A step keeps the input memory, or stores one byte in it. -/
theorem step_mem_cases {s t : State} (h : step s = .next t) :
    t.mem = s.mem ∨ ∃ a b, t.mem = Memory.store s.mem a b := by
  obtain ⟨-, ⟨-, rfl⟩ | ⟨rest, ⟨v, -, hi⟩ | ⟨r, v, -, -, rfl⟩ | ⟨r, -, rfl⟩
    | ⟨-, ⟨-, -, rfl⟩ | ⟨-, rfl⟩⟩ | ⟨a, b, -, rfl⟩ | ⟨-, rfl⟩⟩⟩ := step_next_cases h
  · exact .inl rfl
  · exact .inl (issueWord_mem (s := { s with pending := rest }) hi)
  · exact .inl (writeReg_mem r v _)
  · exact .inl rfl
  · exact .inl rfl
  · exact .inl rfl
  · exact .inr ⟨_, _, rfl⟩
  · exact .inl rfl

/-- No step admits an address or gives one up. -/
theorem step_keeps_admission {s t : State} (h : step s = .next t) (x : Nat) :
    (Memory.read t.mem x).isSome = (Memory.read s.mem x).isSome := by
  rcases step_mem_cases h with hm | ⟨a, b, hm⟩
  · rw [hm]
  · rw [hm, memory_store_admits]

/-- An address that was not admitted before a step is not admitted after it. -/
theorem step_keeps_not_admitted {s t : State} (h : step s = .next t) {x : Nat}
    (hx : Memory.read s.mem x = none) : Memory.read t.mem x = none := by
  have hkept := step_keeps_admission h x
  simpa [hx] using hkept

/-! ## Where the buffer read stops (R61, R65) -/

/-- A range touches side-effect memory exactly when one of its bytes lies there. -/
theorem touchesSideEffects_iff (ranges : List MemRange) (a n : Nat) :
    touchesSideEffects ranges a n = true ↔
      ∃ r ∈ ranges, ∃ x, r.base ≤ x ∧ x < r.base + r.size ∧ a ≤ x ∧ x < a + n := by
  simp only [touchesSideEffects, List.any_eq_true, decide_eq_true_eq]
  refine exists_congr fun r => and_congr_right fun _ => ⟨fun h => ⟨max r.base a, ?_⟩, ?_⟩
  · omega
  · rintro ⟨x, hx⟩
    omega

theorem not_bufferIs_of_not_admitted {s : State} {k : Nat} (hk : k < s.len.toNat)
    (hn : Memory.read s.mem (s.src.toNat + k) = none) (B : Bytes) : ¬ BufferIs s B := by
  rintro ⟨hlen, -, -, hread⟩
  have hk : k < B.length := by omega
  simpa [hn, hk] using hread k hk

theorem readBuffer_wraps {s : State} (h : 2 ^ 64 < s.src.toNat + s.len.toNat) :
    readBuffer s = .fault (.stuck .bufferWraps) :=
  if_pos h

theorem readBuffer_sideEffects {s : State} (hw : s.src.toNat + s.len.toNat ≤ 2 ^ 64)
    (h : touchesSideEffects s.cfg.sideEffects s.src.toNat s.len.toNat = true) :
    readBuffer s = .refused .sideEffectMemory := by
  rw [readBuffer, if_neg (by omega), if_pos h]

/-- Past the wrap and the side-effect checks only a byte that is not admitted stops the read. -/
theorem readBuffer_not_admitted {s : State} (hw : s.src.toNat + s.len.toNat ≤ 2 ^ 64)
    (hs : touchesSideEffects s.cfg.sideEffects s.src.toNat s.len.toNat = false)
    (hn : ∀ B, ¬ BufferIs s B) : readBuffer s = .fault (.stuck .bufferNotAdmitted) := by
  have hread : ∀ B, readBuffer s ≠ .next B := fun B h => hn B ((readBuffer_next_iff s B).mp h)
  rw [readBuffer, if_neg (by omega), hs, if_neg (by decide)] at hread ⊢
  split at hread
  · exact absurd rfl (hread _)
  · rfl

/-! ## A command and its buffer read (R86) -/

theorem reads_buffer_of_not_mem {i : Instr} (hi : i ∉ registerOnly) :
    (instrReads i).buffer = true := by
  simpa [registerOnly_iff] using hi

/-- A buffer command that has its buffer has the one of the state. -/
theorem bufferIs_of_commandBuffer {i : Instr} {s : State} {B : Bytes} (hi : i ∉ registerOnly)
    (h : commandBuffer i s = .next B) : BufferIs s B := by
  rw [commandBuffer, if_pos (reads_buffer_of_not_mem hi)] at h
  exact (readBuffer_next_iff s B).mp h

section Stops

variable {s : State} {i : Instr} (hf : s.fault = false) (hg : gateHeld s.cfg i)
  (hl : lenHeld s.len.toNat i) (hi : i ∉ registerOnly)

include hg hl hi

/-- The conditions of a claim about a buffer command are the checks of the issue step. -/
theorem checks_of_held : capSubset (instrGate s.cfg i) s.cfg.hwcap = true
    ∧ instrDomain s.len.toNat i = true ∧ (instrReads i).buffer = true :=
  ⟨(gateHeld_iff _ _).mp hg, (lenHeld_iff s.len.isLt i).mp hl, reads_buffer_of_not_mem hi⟩

include hf

theorem exec_fault_of_readBuffer {f : Fault} (h : readBuffer s = .fault f) :
    exec i s = .fault f := by
  obtain ⟨hg, hd, hb⟩ := checks_of_held hg hl hi
  simp [exec_eq_issue, issue, hf, hg, hd, commandBuffer, hb, h]

theorem exec_refused_of_readBuffer {r : Refusal} (h : readBuffer s = .refused r) :
    exec i s = .refused r := by
  obtain ⟨hg, hd, hb⟩ := checks_of_held hg hl hi
  simp [exec_eq_issue, issue, hf, hg, hd, commandBuffer, hb, h]

/-- A buffer command past its checks has a next state only when its buffer can be read. -/
theorem bufferIs_of_exec_next {t : State} (h : exec i s = .next t) : ∃ B, BufferIs s B := by
  obtain ⟨hg, hd, -⟩ := checks_of_held hg hl hi
  rw [exec_eq_issue] at h
  rcases issue_next_cases h with ⟨hf', -⟩ | ⟨-, hg', -⟩ | ⟨-, -, hd', -⟩
    | ⟨-, -, -, B, r, hB, -⟩
  · simp [hf] at hf'
  · simp [hg] at hg'
  · simp [hd] at hd'
  · exact ⟨B, bufferIs_of_commandBuffer hi hB⟩

end Stops

/-! ## The datapaths stay inside the buffer (R67, R341) -/

/-- No command ends in InternalRange: its datapath has a value on what it reads. -/
theorem exec_ne_internalRange (i : Instr) (s : State) : exec i s ≠ .fault .internalRange := by
  intro h
  rw [exec_eq_issue] at h
  rcases issue_cases i s (bodyOf s i) with ⟨t, ht⟩ | ⟨why, ht, -⟩ | ⟨ht, -⟩
    | ⟨-, -, hd, B, hB, hnone⟩
  · cases ht.symm.trans h
  · cases ht.symm.trans h
  · cases ht.symm.trans h
  · obtain ⟨B', r, hB', hr⟩ := bodyOf_ready hd fun hi => ⟨B, bufferIs_of_commandBuffer hi hB⟩
    obtain rfl : B = B' := Host.Outcome.next.inj (hB.symm.trans hB')
    cases hnone.symm.trans hr

/-- Only a listed command word stops a CMD write. -/
theorem issueWord_fault {v : U64} {s : State} {f : Fault} (h : issueWord v s = .fault f) :
    ∃ i, decode v = .ok i ∧ exec i s = .fault f := by
  unfold issueWord at h
  split at h
  · cases h
  · split at h
    · exact ⟨_, ‹_›, h⟩
    · cases h

/-- Only a CMD write stops an access of the host. -/
theorem hostAction_fault {a : HostAction} {s : State} {f : Fault}
    (h : hostAction a s = .fault f) :
    ∃ v, a = .store (s.cfg.regBase + regOffset .cmd) 8 v ∧ issueWord v s = .fault f := by
  cases a with
  | store addr bytes v =>
    simp only [hostAction] at h
    split at h
    · rename_i r hr
      obtain ⟨rfl, rfl⟩ := windowReg_some hr
      unfold storeReg at h
      split at h
      · rename_i hcmd
        exact ⟨v, by rw [hcmd], h⟩
      · cases h
    · cases h
  | load addr bytes =>
    simp only [hostAction] at h
    split at h <;> cases h
  | wait =>
    simp only [hostAction] at h
    split at h <;> cases h
  | memStore a b => cases h
  | reset => cases h

/-- Only a CMD write of a listed word stops a step, and its command does. -/
theorem step_fault {s : State} {f : Fault} (h : step s = .fault f) :
    ∃ v rest i, HostStores s .cmd v rest ∧ decode v = .ok i
      ∧ exec i { s with pending := rest } = .fault f := by
  unfold step at h
  split at h
  · rename_i hc
    unfold hostStep at h
    split at h
    · cases h
    · rename_i a rest hp
      obtain ⟨v, rfl, hv⟩ := hostAction_fault h
      obtain ⟨i, hi, hx⟩ := issueWord_fault hv
      exact ⟨v, rest, i, ⟨hc, hp⟩, hi, hx⟩
  · cases h

/-! ## The statements -/

/-- Settles O9: the command stops where its buffer read does, wrap first, then side effects, then
admission. -/
theorem bufferStops : Obligations.BufferStops := by
  intro s i hf hg hl hi
  refine ⟨fun hw => ?_, fun hw hs => ?_, fun hw hs ⟨k, hk, hn⟩ => ?_, fun h0 => bufferIs_nil h0⟩
  · exact exec_fault_of_readBuffer hf hg hl hi (readBuffer_wraps hw)
  · have hs := (touchesSideEffects_iff _ _ _).mpr hs
    exact exec_refused_of_readBuffer hf hg hl hi (readBuffer_sideEffects hw hs)
  · have hs : touchesSideEffects s.cfg.sideEffects s.src.toNat s.len.toNat = false := by
      rw [Bool.eq_false_iff, ne_eq, touchesSideEffects_iff]
      rintro ⟨r, hr, x, hlo, hhi, hx⟩
      exact hs r hr x hlo hhi hx
    exact exec_fault_of_readBuffer hf hg hl hi
      (readBuffer_not_admitted hw hs (not_bufferIs_of_not_admitted hk hn))

/-- Settles O10: only a command stops a step, and no command's datapath fetches outside its
buffer. -/
theorem noStepFetchesOutsideTheBuffer : Obligations.NoStepFetchesOutsideTheBuffer := by
  intro s h
  obtain ⟨v, rest, i, -, -, hx⟩ := step_fault h
  exact exec_ne_internalRange i _ hx

/-- Settles O23: the store's reads are `Memory.store`'s, and admission outlives every step, so a
buffer once not admitted has no next state. -/
theorem hostMemoryStore : Obligations.HostMemoryStore := by
  refine ⟨fun s a b rest hc hp => ⟨Memory.store s.mem a.toNat b, step_pending hc hp,
      memory_read_store s.mem a.toNat b, fun B hB => ⟨_, bufferIs_memStore hB rest a.toNat b,
        fun k hk => bytesAfterStore_getElem? _ _ _ hk⟩⟩,
    fun s t h x => step_keeps_admission h x,
    fun s t i h hf hg hl hi ⟨k, hk, hn⟩ u hu => ?_⟩
  obtain ⟨B, hB⟩ := bufferIs_of_exec_next hf hg hl hi hu
  exact not_bufferIs_of_not_admitted hk (step_keeps_not_admitted h hn) B hB

end Sys2Proof.Proofs

/-! # The command word

Settles the statements of 30_encoding.md. The facts come first: a word is its two fields, the opcode
table names each command once and no reserved OPC, decoding undoes encoding and rejects the rest,
what a CMD write of a rejected word does, and what a WAIT does; the settled statements follow. -/

namespace Sys2Proof.Proofs

open Sys2Proof.Machine Sys2Proof.Laws

/-! ## The fields of a word (R80) -/

/-- A 64-bit value is the zero-extension of a byte exactly when RSV is zero and OPC is that byte. -/
theorem eq_setWidth_iff_fields (v : U64) (o : Byte) :
    v = o.setWidth 64 ↔ rsvField v = 0 ∧ opcField v = o := by
  have ho := o.isLt
  have hv := v.isLt
  have h0 : (0 : BitVec 56).toNat = 0 := rfl
  simp only [rsvField, opcField, ← BitVec.toNat_inj, BitVec.toNat_setWidth,
    BitVec.extractLsb'_toNat, Nat.shiftRight_eq_div_pow, h0]
  omega

/-- A value is a command's word exactly when RSV is zero and OPC is the command's. -/
theorem eq_encode_iff_fields (v : U64) (i : Instr) :
    v = encode i ↔ rsvField v = 0 ∧ opcField v = i.opc :=
  eq_setWidth_iff_fields v i.opc

/-! ## The opcode table (R84, R85) -/

/-- The table lists every command under its own OPC. -/
theorem lookupOpc_of_opc (i : Instr) : lookupOpc i.opc = some i := by
  cases i <;> rfl

theorem lookupOpc_eq_some_iff {o : Byte} {i : Instr} : lookupOpc o = some i ↔ i.opc = o := by
  refine ⟨lookupOpc_opc, ?_⟩
  rintro rfl
  exact lookupOpc_of_opc i

/-- No two commands share an OPC. -/
theorem opc_injective : Function.Injective Instr.opc := by
  intro i j h
  have hi := lookupOpc_of_opc i
  rw [h, lookupOpc_of_opc j] at hi
  exact (Option.some.inj hi).symm

/-- No command has an OPC that R85 reserves. -/
theorem reservedOpc_opc (i : Instr) : reservedOpc i.opc = false := by
  cases i <;> rfl

/-- The table lists every OPC that R85 does not reserve: both are finite lists, compared byte by
byte. -/
theorem lookupOpc_isSome_of_not_reserved :
    ∀ o : Byte, reservedOpc o = false → (lookupOpc o).isSome = true := by
  decide

theorem reservedOpc_iff_no_command (o : Byte) : reservedOpc o = true ↔ ∀ i : Instr, i.opc ≠ o := by
  constructor
  · rintro hr i rfl
    simp [reservedOpc_opc] at hr
  · contrapose!
    intro hr
    obtain ⟨i, hi⟩ :=
      Option.isSome_iff_exists.mp (lookupOpc_isSome_of_not_reserved o (Bool.eq_false_iff.mpr hr))
    exact ⟨i, lookupOpc_opc hi⟩

/-- The table leaves out exactly the OPC values R85 reserves. -/
theorem lookupOpc_eq_none_iff (o : Byte) : lookupOpc o = none ↔ reservedOpc o = true := by
  rw [reservedOpc_iff_no_command, Option.eq_none_iff_forall_ne_some]
  exact forall_congr' fun i => not_congr lookupOpc_eq_some_iff

/-- An OPC is reserved exactly when it lies in one of R85's ranges. -/
theorem reservedOpc_iff_mem_range (o : Byte) :
    reservedOpc o = true ↔ ∃ r ∈ reservedOpcRanges, r.1 ≤ o.toNat ∧ o.toNat ≤ r.2 := by
  simp [reservedOpc]

/-! ## Decoding and encoding (R80, R85) -/

/-- What decodes to a command has RSV zero and the OPC the table lists for it. -/
theorem decode_eq_ok_iff_fields (v : U64) (i : Instr) :
    decode v = .ok i ↔ rsvField v = 0 ∧ lookupOpc (opcField v) = some i := by
  unfold decode
  split
  · split <;> simp_all
  · simp_all

theorem decode_eq_ok_iff (v : U64) (i : Instr) : decode v = .ok i ↔ v = encode i := by
  rw [decode_eq_ok_iff_fields, lookupOpc_eq_some_iff, eq_encode_iff_fields, eq_comm (a := i.opc)]

theorem decode_encode (i : Instr) : decode (encode i) = .ok i :=
  (decode_eq_ok_iff _ i).mpr rfl

theorem decode_of_rsv {v : U64} (h : rsvField v ≠ 0) : decode v = .error .rsvNonzero :=
  if_neg h

theorem decode_of_reserved {v : U64} (hr : rsvField v = 0) (ho : reservedOpc (opcField v) = true) :
    decode v = .error .reservedOpc := by
  simp [decode, hr, (lookupOpc_eq_none_iff _).mpr ho]

/-- A set bit of RSV or a reserved OPC is reason enough to reject a word. -/
theorem decode_rejects {v : U64} (h : rsvField v ≠ 0 ∨ reservedOpc (opcField v) = true) :
    ∃ e, decode v = .error e := by
  by_cases hr : rsvField v = 0
  · exact ⟨_, decode_of_reserved hr (h.resolve_left (not_not_intro hr))⟩
  · exact ⟨_, decode_of_rsv hr⟩

/-! ## A CMD write (R343, R376) -/

/-- A CMD write of a rejected word raises ILLEGAL_OP, whatever the reason (R343). -/
theorem issueWord_of_rejected {v : U64} {e : IllegalWord} {s : State} (hf : s.fault = false)
    (hd : decode v = .error e) : issueWord v s = .next (faultedWith (opcField v) 1 s) := by
  rw [issueWord, hf, hd]
  rfl

/-- A CMD write, ignored or not, leaves the host's coming accesses and the configuration alone and
shows an outcome in STATUS. -/
theorem issueWord_outcome {v : U64} {s t : State} (h : issueWord v s = .next t) :
    t.pending = s.pending ∧ t.cfg = s.cfg ∧ (t.done = true ∨ t.fault = true) := by
  rcases issueWord_next_cases h with ⟨hf, rfl⟩ | ⟨-, c, -, rfl⟩ | ⟨-, r, rfl⟩
  · exact ⟨rfl, rfl, .inr hf⟩
  · exact ⟨rfl, rfl, .inr rfl⟩
  · simp

/-! ## WAIT (R88) -/

/-- A WAIT with DONE or FAULT 1 ends. -/
theorem step_wait_ends {s : State} {rest : List HostAction} (hc : configAdmitted s.cfg = true)
    (hp : s.pending = .wait :: rest) (h : s.done = true ∨ s.fault = true) :
    step s = .next { s with pending := rest } := by
  rw [step_pending hc hp]
  simp [hostAction, h]

/-- A WAIT with DONE and FAULT both 0 leaves the state as it is, itself pending. -/
theorem step_wait_stays {s : State} {rest : List HostAction} (hc : configAdmitted s.cfg = true)
    (hp : s.pending = .wait :: rest) (hd : s.done = false) (hf : s.fault = false) :
    step s = .next s := by
  rw [step_pending hc hp, hostAction, if_neg (by simp [hd, hf]), ← hp]

/-! ## The statements -/

/-- Settles O2: a word is its two fields, and the table lists each command under its own OPC
alone. -/
theorem decodeEncodeAgree : Obligations.DecodeEncodeAgree :=
  decode_eq_ok_iff

/-- Settles O3: the listed ranges are `reservedOpcRanges`, and a word with a bit of RSV set or an OPC
in them is rejected. -/
theorem illegalWords : Obligations.IllegalWords := by
  refine ⟨fun o => ?_, fun s v rest hs hf hv => ?_, fun i => opc_injective.eq_iff (b := .nop)⟩
  · exact (reservedOpc_iff_mem_range o).symm.trans (reservedOpc_iff_no_command o)
  · obtain ⟨e, he⟩ := decode_rejects (hv.imp_right (reservedOpc_iff_mem_range _).mpr)
    rw [step_cmd hs, issueWord_of_rejected (s := { s with pending := rest }) hf he]
    rfl

/-- Settles O22: the CMD write shows an outcome, and the WAIT behind it sees that outcome. -/
theorem waitTakesOneStep : Obligations.WaitTakesOneStep := by
  refine ⟨fun s t v rest hs ht => ?_, fun s rest hc hp hd hf => step_wait_stays hc hp hd hf⟩
  rw [step_cmd hs] at ht
  obtain ⟨hp, hc, hout⟩ := issueWord_outcome ht
  exact ⟨hout, step_wait_ends (hc ▸ hs.1) hp hout⟩

/-- Settles O1: each listed word is its command's encoding; the other two have a reserved OPC and a
bit of RSV. -/
theorem sampleWordsDecode : Obligations.SampleWordsDecode :=
  ⟨decode_encode .nop, decode_encode .fmix, decode_encode .naLen17to32, decode_encode .ccCitymurmur,
    decode_encode .uoH64s, decode_encode .ccH128, decode_encode .hash64ss, decode_encode .fp128,
    decode_of_reserved (by decide) (by decide), decode_of_rsv (by decide)⟩

end Sys2Proof.Proofs

/-! # The primitives

Settles the statements of 40_primitives.md. The facts come first: the xor-shift, rotate and multiply
steps the mixing functions are made of, the byte reversals, the fetches as bytes and as numbers, and
which of the functions are bijections; the settled statements follow, in a namespace of
their own, since some of them bear the names of the functions they are about. -/

namespace Sys2Proof.Proofs

open Sys2Proof.Machine Sys2Proof.Laws

/-! ## Steps on a word of any width -/

section Words

variable {w : Nat}

/-- A word exclusive-ored with itself shifted right by `k`: the step of Fmix and ShiftMix (R107,
R109). -/
def xorShift (k : Nat) (x : BitVec w) : BitVec w := x ^^^ (x >>> k)

/-- The two shifts by `k` cancel, and what is left is one step by `2 * k`. -/
theorem xorShift_xorShift (k : Nat) (x : BitVec w) :
    xorShift k (xorShift k x) = xorShift (2 * k) x := by
  simp only [xorShift, BitVec.ushiftRight_xor_distrib, ← BitVec.shiftRight_add, two_mul]
  rw [BitVec.xor_assoc, ← BitVec.xor_assoc (x >>> k), BitVec.xor_self, BitVec.zero_xor]

theorem xorShift_of_width_le {k : Nat} (h : w ≤ k) (x : BitVec w) : xorShift k x = x := by
  rw [xorShift, BitVec.ushiftRight_eq_zero h, BitVec.xor_zero]

/-- The top `k` bits are kept. -/
theorem getLsbD_xorShift_of_le {k i : Nat} (h : w ≤ k + i) (x : BitVec w) :
    (xorShift k x).getLsbD i = x.getLsbD i := by
  rw [xorShift, BitVec.getLsbD_xor, BitVec.getLsbD_ushiftRight, BitVec.getLsbD_of_ge x _ h,
    Bool.xor_false]

/-- Repeating the step doubles its shift until that passes the width, where it changes nothing. -/
theorem xorShift_injective {k : Nat} (hk : 0 < k) :
    Function.Injective (xorShift k : BitVec w → BitVec w) := by
  intro x y h
  by_cases hw : w ≤ k
  · rwa [xorShift_of_width_le hw, xorShift_of_width_le hw] at h
  · refine xorShift_injective (k := 2 * k) (by omega) ?_
    rw [← xorShift_xorShift, h, xorShift_xorShift]
termination_by w - k

theorem xorShift_bijective {k : Nat} (hk : 0 < k) :
    Function.Bijective (xorShift k : BitVec w → BitVec w) :=
  Finite.injective_iff_bijective.mp (xorShift_injective hk)

/-- The spec's two cases of a right rotate (R103, R104) are the library's. -/
theorem rotateRight_eq_ite {r : Nat} (h : r < w) (v : BitVec w) :
    v.rotateRight r = if r = 0 then v else v >>> r ||| v <<< (w - r) := by
  rw [BitVec.rotateRight_def, Nat.mod_eq_of_lt h]
  by_cases h0 : r = 0
  · subst h0
    simp
  · rw [if_neg h0]

theorem rotateLeft_rotateRight (r : Nat) (v : BitVec w) : (v.rotateRight r).rotateLeft r = v := by
  refine BitVec.eq_of_getLsbD_eq fun i hi => ?_
  have hm := Nat.mod_lt r (show w > 0 by omega)
  simp only [BitVec.getLsbD_rotateLeft, BitVec.getLsbD_rotateRight]
  generalize r % w = m at hm
  by_cases him : i < m
  · simp [him, hi, show w - m + i < w by omega]
  · simp [him, hi, show i - m < w - m by omega, show m + (i - m) = i by omega]

theorem rotateRight_bijective (r : Nat) :
    Function.Bijective (BitVec.rotateRight · r : BitVec w → BitVec w) :=
  Finite.injective_iff_bijective.mp
    (Function.LeftInverse.injective (g := (BitVec.rotateLeft · r)) (rotateLeft_rotateRight r))

theorem mul_bijective_of_inverse {c d : BitVec w} (h : c * d = 1) : Function.Bijective (· * c) :=
  IsUnit.isUnit_iff_mulRight_bijective.mp (IsUnit.of_mul_eq_one d h)

theorem complement_bijective : Function.Bijective (~~~ · : BitVec w → BitVec w) :=
  Function.Involutive.bijective fun _ => BitVec.not_not

/-- The bits of byte `a` of a word, placed at bit `m`. -/
theorem getLsbD_placedByte (v : BitVec w) (a m : Nat) {i : Nat} (hi : i < w) :
    ((v.extractLsb' a 8).setWidth w <<< m).getLsbD i
      = (decide (m ≤ i ∧ i < m + 8) && v.getLsbD (a + (i - m))) := by
  simp only [BitVec.getLsbD_shiftLeft, BitVec.getLsbD_setWidth, BitVec.getLsbD_extractLsb']
  grind

theorem getLsbD_lowByte (v : BitVec w) (a : Nat) {i : Nat} (hi : i < w) :
    ((v.extractLsb' a 8).setWidth w).getLsbD i = (decide (i < 8) && v.getLsbD (a + i)) := by
  simpa using getLsbD_placedByte v a 0 hi

end Words

/-! ## Rotates (R103, R104) -/

theorem rotate32_eq_rotateRight {r : Nat} (h : r < 32) (v : U32) :
    rotate32 v r = v.rotateRight r :=
  (rotateRight_eq_ite h v).symm

theorem rotate64_eq_rotateRight {r : Nat} (h : r < 64) (v : U64) :
    rotate64 v r = v.rotateRight r :=
  (rotateRight_eq_ite h v).symm

theorem rotateAmount32_eq_mod (v : U64) : rotateAmount32 v = v.toNat % 32 := by
  simp [rotateAmount32]

theorem rotateAmount64_eq_mod (v : U64) : rotateAmount64 v = v.toNat % 64 := by
  simp [rotateAmount64]

theorem rotate32_bijective {r : Nat} (h : r < 32) : Function.Bijective (rotate32 · r) := by
  simp only [rotate32_eq_rotateRight h]
  exact rotateRight_bijective r

/-! ## Byte reversals (R105, R106) -/

/-- Byte `j` of the reversal is byte `3 - j` of the word. -/
theorem getLsbD_bswap32 (v : U32) {j r : Nat} (hj : j < 4) (hr : r < 8) :
    (bswap32 v).getLsbD (8 * j + r) = v.getLsbD (8 * (3 - j) + r) := by
  have hi : 8 * j + r < 32 := by omega
  simp only [bswap32, BitVec.getLsbD_or, getLsbD_placedByte v _ _ hi, getLsbD_lowByte v _ hi]
  interval_cases j <;> grind

/-- Byte `j` of the reversal is byte `7 - j` of the word. -/
theorem getLsbD_bswap64 (v : U64) {j r : Nat} (hj : j < 8) (hr : r < 8) :
    (bswap64 v).getLsbD (8 * j + r) = v.getLsbD (8 * (7 - j) + r) := by
  have hi : 8 * j + r < 64 := by omega
  simp only [bswap64, BitVec.getLsbD_or, getLsbD_placedByte v _ _ hi, getLsbD_lowByte v _ hi]
  interval_cases j <;> grind

/-- A function that reverses the bytes of a word is an involution. -/
theorem involutive_of_reverses_bytes {n : Nat} {f : BitVec (8 * n) → BitVec (8 * n)}
    (h : ∀ v, ∀ j < n, ∀ r < 8, (f v).getLsbD (8 * j + r) = v.getLsbD (8 * (n - 1 - j) + r)) :
    Function.Involutive f := by
  refine fun v => BitVec.eq_of_getLsbD_eq fun i hi => ?_
  have hj : i / 8 < n := by omega
  have hr : i % 8 < 8 := by omega
  rw [← Nat.div_add_mod i 8, h _ _ hj _ hr, h _ _ (by omega) _ hr,
    show n - 1 - (n - 1 - i / 8) = i / 8 by omega]

theorem bswap32_involutive : Function.Involutive bswap32 :=
  involutive_of_reverses_bytes (n := 4) fun v _ hj _ hr => getLsbD_bswap32 v hj hr

theorem bswap64_involutive : Function.Involutive bswap64 :=
  involutive_of_reverses_bytes (n := 8) fun v _ hj _ hr => getLsbD_bswap64 v hj hr

/-- Bits 0 to `n - 1` of `p` are 0. -/
def ClearBelow (n : Nat) (p : U64) : Prop := ∀ i < n, p.getLsbD i = false

theorem clearBelow_field {m : Nat} (b : Byte) (hm : m + 8 ≤ 64) :
    ClearBelow m (b.setWidth 64 <<< m) := by
  intro i hi
  simp [getLsbD_field b hm, Nat.not_le.mpr hi]

/-- A byte added in the clear low bits of a word is or-ed in, and leaves the bits below it clear. -/
theorem ClearBelow.add_field {m : Nat} {p : U64} (hp : ClearBelow (m + 8) p) (b : Byte)
    (hm : m + 8 ≤ 64) :
    p + b.setWidth 64 <<< m = p ||| b.setWidth 64 <<< m
      ∧ ClearBelow m (p ||| b.setWidth 64 <<< m) := by
  refine ⟨BitVec.add_eq_or_of_and_eq_zero _ _ (BitVec.eq_of_getLsbD_eq fun i _ => ?_),
    fun i hi => ?_⟩
  · rw [BitVec.getLsbD_and, getLsbD_field b hm, BitVec.getLsbD_zero]
    by_cases hi : i < m + 8
    · simp [hp i hi]
    · simp [BitVec.getLsbD_of_ge b (i - m) (by omega)]
  · simp [hp i (by omega), clearBelow_field b hm i hi]

/-- The model's or is R106's sum: from the top byte down, each byte is added in clear bits. -/
theorem bswap64_eq_sum (v : U64) : bswap64 v
    = (v.extractLsb' 0 8).setWidth 64 <<< 56 + (v.extractLsb' 8 8).setWidth 64 <<< 48
      + (v.extractLsb' 16 8).setWidth 64 <<< 40 + (v.extractLsb' 24 8).setWidth 64 <<< 32
      + (v.extractLsb' 32 8).setWidth 64 <<< 24 + (v.extractLsb' 40 8).setWidth 64 <<< 16
      + (v.extractLsb' 48 8).setWidth 64 <<< 8 + (v.extractLsb' 56 8).setWidth 64 := by
  have c0 := clearBelow_field (m := 56) (v.extractLsb' 0 8) (by decide)
  obtain ⟨e1, c1⟩ := c0.add_field (m := 48) (v.extractLsb' 8 8) (by decide)
  obtain ⟨e2, c2⟩ := c1.add_field (m := 40) (v.extractLsb' 16 8) (by decide)
  obtain ⟨e3, c3⟩ := c2.add_field (m := 32) (v.extractLsb' 24 8) (by decide)
  obtain ⟨e4, c4⟩ := c3.add_field (m := 24) (v.extractLsb' 32 8) (by decide)
  obtain ⟨e5, c5⟩ := c4.add_field (m := 16) (v.extractLsb' 40 8) (by decide)
  obtain ⟨e6, c6⟩ := c5.add_field (m := 8) (v.extractLsb' 48 8) (by decide)
  obtain ⟨e7, -⟩ := c6.add_field (m := 0) (v.extractLsb' 56 8) (by decide)
  rw [BitVec.shiftLeft_zero] at e7
  rw [e1, e2, e3, e4, e5, e6, e7, bswap64]

/-! ## Fetches (R62, R101) -/

theorem fetch32_eq_bytes {B : Bytes} {i : Nat} (h : i + 4 ≤ B.length) :
    fetch32 B i = some ((B.getD i 0).setWidth 32 ||| (B.getD (i + 1) 0).setWidth 32 <<< 8
      ||| (B.getD (i + 2) 0).setWidth 32 <<< 16 ||| (B.getD (i + 3) 0).setWidth 32 <<< 24) := by
  rw [fetch32, drop_eq_getD_cons (by omega), drop_eq_getD_cons (by omega),
    drop_eq_getD_cons (by omega), drop_eq_getD_cons (by omega)]

theorem fetch64_eq_bytes {B : Bytes} {i : Nat} (h : i + 8 ≤ B.length) :
    fetch64 B i = some ((B.getD i 0).setWidth 64 + (B.getD (i + 1) 0).setWidth 64 <<< 8
      + (B.getD (i + 2) 0).setWidth 64 <<< 16 + (B.getD (i + 3) 0).setWidth 64 <<< 24
      + (B.getD (i + 4) 0).setWidth 64 <<< 32 + (B.getD (i + 5) 0).setWidth 64 <<< 40
      + (B.getD (i + 6) 0).setWidth 64 <<< 48 + (B.getD (i + 7) 0).setWidth 64 <<< 56) := by
  rw [fetch64, drop_eq_getD_cons (by omega), drop_eq_getD_cons (by omega),
    drop_eq_getD_cons (by omega), drop_eq_getD_cons (by omega), drop_eq_getD_cons (by omega),
    drop_eq_getD_cons (by omega), drop_eq_getD_cons (by omega), drop_eq_getD_cons (by omega)]

/-- A fetch at 0 looks at the first four bytes alone, too few of them included. -/
theorem fetch32_take (B : Bytes) : fetch32 (B.take 4) 0 = fetch32 B 0 :=
  match B with
  | [] | [_] | [_, _] | [_, _, _] | _ :: _ :: _ :: _ :: _ => rfl

/-- A little-endian number of `k + m` bytes has the first `k` bytes low and the rest high. -/
theorem leNat_add (B : Bytes) (i k m : Nat) :
    leNat B i (k + m) = leNat B i k + 256 ^ k * leNat B (i + k) m := by
  induction k generalizing i with
  | zero => simp [leNat_zero]
  | succ k ih =>
    rw [Nat.add_right_comm, leNat_succ, leNat_succ, ih, show i + (k + 1) = i + 1 + k by omega]
    ring

/-- A 32-bit fetch is the low half of the 64-bit fetch at its offset (R62). -/
theorem setWidth_le64 (B : Bytes) (i : Nat) : (le64 B i).setWidth 32 = le32 B i := by
  have h : leNat B i 8 = leNat B i 4 + 256 ^ 4 * leNat B (i + 4) 4 := leNat_add B i 4 4
  apply BitVec.eq_of_toNat_eq
  simp only [le64, le32, BitVec.toNat_setWidth, BitVec.toNat_ofNat]
  omega

/-! ## The mixing functions as chains of bijections (R107, R108, R109, R112, R113, R114)

Each multiplier is odd; the inverse that shows it invertible is written out. -/

theorem shiftMix_eq_xorShift (x : U64) : shiftMix x = xorShift 47 x := rfl

theorem fmix_eq_comp :
    fmix = xorShift 16 ∘ (· * fmixMul2) ∘ xorShift 13 ∘ (· * fmixMul1) ∘ xorShift 16 := rfl

theorem fmix_bijective : Function.Bijective fmix := by
  have h16 : Function.Bijective (xorShift 16 : U32 → U32) := xorShift_bijective (by decide)
  have h13 : Function.Bijective (xorShift 13 : U32 → U32) := xorShift_bijective (by decide)
  have hm1 : Function.Bijective (· * fmixMul1) := mul_bijective_of_inverse (d := 0xA5CB9243) rfl
  have hm2 : Function.Bijective (· * fmixMul2) := mul_bijective_of_inverse (d := 0x7ED1B41D) rfl
  rw [fmix_eq_comp]
  exact h16.comp (hm2.comp (h13.comp (hm1.comp h16)))

theorem mur_eq_comp (a : U32) :
    mur a = (· + murAdd) ∘ (· * 5) ∘ (rotate32 · 19) ∘ (· ^^^ rotate32 (a * c1) 17 * c2) := rfl

theorem mur_bijective (a : U32) : Function.Bijective (mur a) := by
  have hx : Function.Bijective (· ^^^ rotate32 (a * c1) 17 * c2) :=
    Function.Involutive.bijective fun h => by
      rw [BitVec.xor_assoc, BitVec.xor_self, BitVec.xor_zero]
  have hr : Function.Bijective (rotate32 · 19) := rotate32_bijective (by decide)
  have hm : Function.Bijective (· * (5 : U32)) := mul_bijective_of_inverse (d := 0xCCCCCCCD) rfl
  have ha : Function.Bijective (· + murAdd) := (Equiv.addRight murAdd).bijective
  rw [mur_eq_comp]
  exact ha.comp (hm.comp (hr.comp hx))

theorem mul_k1_bijective : Function.Bijective (· * k1) :=
  mul_bijective_of_inverse (d := 0x1EC3FE17279602BB) rfl

theorem tweak32_eq_comp : tweak32 = (~~~ ·) ∘ bswap32 ∘ (· * c1) := rfl

theorem tweak32_bijective : Function.Bijective tweak32 := by
  have hm : Function.Bijective (· * c1) := mul_bijective_of_inverse (d := 0xDEE13BB1) rfl
  rw [tweak32_eq_comp]
  exact complement_bijective.comp (bswap32_involutive.bijective.comp hm)

theorem tweak64_eq_comp : tweak64 = (~~~ ·) ∘ bswap64 ∘ (· * k1) := rfl

theorem tweak64_bijective : Function.Bijective tweak64 := by
  rw [tweak64_eq_comp]
  exact complement_bijective.comp (bswap64_involutive.bijective.comp mul_k1_bijective)

/-- How Tweak128 folds its two scrambled halves (R114). -/
def foldTweaked (p : U64 × U64) : U64 × U64 := (p.1 + p.2, (p.2 + (p.1 + p.2)) * k1)

theorem tweak128_eq_comp : tweak128 = foldTweaked ∘ Prod.map tweak64 tweak64 := rfl

/-- The second word gives back the second half once the first word is known, and then the first word
gives back the first half. -/
theorem foldTweaked_bijective : Function.Bijective foldTweaked := by
  refine Finite.injective_iff_bijective.mp fun p q h => ?_
  obtain ⟨hsum, hmul⟩ := Prod.mk.inj h
  have hsnd : p.2 = q.2 := by
    have hadd := mul_k1_bijective.injective hmul
    rw [hsum] at hadd
    exact add_right_cancel hadd
  rw [hsnd] at hsum
  exact Prod.ext (add_right_cancel hsum) hsnd

theorem tweak128_bijective : Function.Bijective tweak128 := by
  rw [tweak128_eq_comp]
  exact foldTweaked_bijective.comp (tweak64_bijective.prodMap tweak64_bijective)

/-! ## NOP (R100) -/

theorem exec_nop {s : State} (hf : s.fault = false) :
    exec .nop s = .next { s with done := true, lastOpc := 0x00 } :=
  exec_registers .nop hf rfl rfl rfl rfl

end Sys2Proof.Proofs

/-! ## The statements -/

namespace Sys2Proof.Proofs.Primitives

open Sys2Proof.Machine Sys2Proof.Laws

/-- Settles O28: the fetches byte by byte, and FETCH32 by its domain and its buffer. -/
theorem fetch32 : Obligations.Fetch32 := by
  refine ⟨fun B i h => fetch32_eq_bytes h, fun B i h => fetch64_eq_bytes h, rfl,
    fun s B hf h4 hB => ?_, fun s hf h4 => ?_, fun B C h => ?_, rfl⟩
  · have hw := fetch32_inside (B := B) (i := 0) h4
    exact ⟨_, hw, exec_buffer_w32 .fetch32 hf rfl (decide_eq_true h4) rfl hB (by simp [bodyOf, hw])⟩
  · exact exec_domain .fetch32 hf rfl (decide_eq_false (by omega))
  · rw [← fetch32_take B, h, fetch32_take C]

/-- Settles O29: FETCH64 by its domain and its buffer, and the two fetches as little-endian
numbers. -/
theorem fetch64 : Obligations.Fetch64 := by
  refine ⟨rfl, fun s B hf h8 hB => ?_, fun s hf h8 => ?_, rfl, fun B i h => ?_⟩
  · have hw := fetch64_inside (B := B) (i := 0) h8
    exact ⟨_, hw, exec_buffer_w64 .fetch64 hf rfl (decide_eq_true h8) rfl hB (by simp [bodyOf, hw])⟩
  · exact exec_domain .fetch64 hf rfl (decide_eq_false (by omega))
  · exact ⟨_, fetch64_inside h, by rw [fetch32_inside (by omega), setWidth_le64]⟩

/-- Settles O30: the model's rotate by a masked amount is the library's. -/
theorem rotates : Obligations.Rotates := by
  refine ⟨fun v r _ => rfl, fun v r _ => rfl, fun s hf => ⟨?_, ?_⟩, rfl, rfl, rfl, rfl⟩
  · rw [← rotate32_eq_rotateRight (Nat.mod_lt _ (by decide)), ← rotateAmount32_eq_mod]
    exact exec_registers_w32 .rot32 hf rfl rfl rfl rfl
  · rw [← rotate64_eq_rotateRight (Nat.mod_lt _ (by decide)), ← rotateAmount64_eq_mod]
    exact exec_registers_w64 .rot64 hf rfl rfl rfl rfl

/-- Settles O31: both functions reverse the bytes, so twice is the identity. -/
theorem byteSwaps : Obligations.ByteSwaps :=
  ⟨rfl, rfl, fun _ => rfl, bswap64_eq_sum, bswap32_involutive, bswap64_involutive,
    fun _ hf => ⟨exec_registers_w32 .bswap32 hf rfl rfl rfl rfl,
      exec_registers_w64 .bswap64 hf rfl rfl rfl rfl⟩, rfl, rfl⟩

/-- Settles O32: each of the five steps is a bijection. -/
theorem fmix : Obligations.Fmix :=
  ⟨rfl, fun _ => rfl, fun _ hf => exec_registers_w32 .fmix hf rfl rfl rfl rfl, rfl,
    fmix_bijective, rfl, rfl, rfl⟩

/-- Settles O33: each step on `h` is a bijection. -/
theorem murCommand : Obligations.MurCommand :=
  ⟨rfl, fun _ _ => rfl, fun _ hf => exec_registers_w32 .mur hf rfl rfl rfl rfl, rfl,
    mur_bijective, rfl, rfl⟩

/-- Settles O36: a scramble is a chain of bijections, and the commands read no DEBUG. -/
theorem tweaks : Obligations.Tweaks :=
  ⟨rfl, rfl, rfl, fun _ => rfl, fun _ => rfl, fun _ _ => rfl,
    fun _ hf => ⟨exec_registers_w32 .tweak32 hf rfl rfl rfl rfl,
      exec_registers_w64 .tweak64 hf rfl rfl rfl rfl,
      exec_registers_pair .tweak128 hf rfl rfl rfl rfl⟩,
    tweak32_bijective, tweak64_bijective, tweak128_bijective,
    rfl, rfl, rfl, rfl, rfl, rfl, rfl, rfl⟩

/-- Settles O27: after reset the word 0x00 is the issue of NOP, which completes. -/
theorem nopCompletes : Obligations.NopCompletes := by
  refine ⟨rfl, fun s hf => exec_nop hf, { State.reset with done := true, lastOpc := 0x00 }, ?_,
    rfl, rfl, rfl⟩
  have hs : HostStores (State.reset.withFetchWord 64 0x00) .cmd (encode .nop) [] := ⟨rfl, rfl⟩
  rw [step_cmd hs, issueWord_of_decode (decode_encode .nop)]
  exact exec_nop rfl

/-- Settles O34: the second application shifts by 94, past the width. -/
theorem shiftMix : Obligations.ShiftMix := by
  refine ⟨rfl, fun _ hf => exec_registers_w64 .shiftmix hf rfl rfl rfl rfl, fun _ => rfl, rfl,
    fun x => ?_, fun x => ?_, rfl, rfl⟩
  · refine extractLsb'_eq_of_getLsbD fun i hi => ?_
    rw [shiftMix_eq_xorShift, getLsbD_xorShift_of_le (by omega)]
    simp [hi]
  · simp only [shiftMix_eq_xorShift, xorShift_xorShift]
    exact xorShift_of_width_le (by decide) x

/-- Settles O35: a product with 0 is 0, whether the multiplier or both halves are. -/
theorem hashLen16s : Obligations.HashLen16s := by
  refine ⟨rfl, rfl, fun _ _ _ => rfl, fun _ _ => rfl,
    fun _ hf => ⟨exec_registers_w64 .hl16 hf rfl rfl rfl rfl,
      exec_registers_w64 .hl16m hf rfl rfl rfl rfl⟩,
    rfl, rfl, rfl, fun u v => ?_, fun mul => ?_, rfl⟩
  · exact BitVec.mul_zero
  · simp [hashLen16M]

end Sys2Proof.Proofs.Primitives

/-! # The length kernels

Settles the statements of 41_kernels.md. The facts come first: which bytes a fetch looks at, each
kernel's value on its lengths, the bucket NA_H64 puts a buffer in, and the completion of each
command; the settled statements follow, in a namespace of their own, since some of them bear the
names of the functions they are about. -/

namespace Sys2Proof.Proofs

open Sys2Proof.Machine Sys2Proof.Laws

variable {B : Bytes}

/-! ## The bytes a kernel looks at -/

theorem getElem?_eq_some_getD {i : Nat} (h : i < B.length) : B[i]? = some (B.getD i 0) := by
  rw [List.getElem?_eq_getElem h, List.getD_eq_getElem _ _ h]

theorem fetch64_drop (B : Bytes) (i : Nat) : fetch64 (B.drop i) 0 = fetch64 B i := rfl

/-- A fetch at 0 looks at the first eight bytes alone, too few of them included. -/
theorem fetch64_take_zero (B : Bytes) (m : Nat) : fetch64 (B.take (m + 8)) 0 = fetch64 B 0 :=
  match B with
  | [] | [_] | [_, _] | [_, _, _] | [_, _, _, _] | [_, _, _, _, _] | [_, _, _, _, _, _]
  | [_, _, _, _, _, _, _] | _ :: _ :: _ :: _ :: _ :: _ :: _ :: _ :: _ => rfl

/-- A fetch that ends within the first `n` bytes looks at none past them. -/
theorem fetch64_take {i n : Nat} (h : i + 8 ≤ n) (B : Bytes) :
    fetch64 (B.take n) i = fetch64 B i := by
  obtain ⟨m, rfl⟩ := Nat.exists_eq_add_of_le h
  rw [← fetch64_drop, List.drop_take, show i + 8 + m - i = m + 8 by omega, fetch64_take_zero,
    fetch64_drop]

/-- WeakMem at 0 looks at the first 32 bytes alone (R145). -/
theorem weakMem_take (B : Bytes) (a b : U64) : weakMem (B.take 32) 0 a b = weakMem B 0 a b := by
  simp (disch := omega) only [weakMem, fetch64_take]

/-! ## The kernels on their lengths (R141, R142, R143) -/

/-- NA's kernel on 8 to 16 bytes: two words, the last of which may overlap the first. -/
theorem naLen0to16_of_eight_le (h : 8 ≤ B.length) :
    let mul := k2 + 2 * nat64 B.length
    let a := le64 B 0 + k2
    let b := le64 B (B.length - 8)
    naLen0to16 B
      = some (hashLen16M (rotate64 b 37 * mul + a) ((rotate64 a 25 + b) * mul) mul) := by
  simp (disch := omega) [naLen0to16, h, fetch64_inside]

/-- NA's kernel on 4 to 7 bytes: two half-words. -/
theorem naLen0to16_of_four_le (h : 4 ≤ B.length) (h' : B.length ≤ 7) :
    naLen0to16 B = some (hashLen16M (nat64 B.length + ((le32 B 0).setWidth 64 <<< 3))
      ((le32 B (B.length - 4)).setWidth 64) (k2 + 2 * nat64 B.length)) := by
  have h8 : ¬ 8 ≤ B.length := by omega
  simp (disch := omega) [naLen0to16, h8, h, fetch32_inside, zext64]

/-- NA's kernel on 1 to 3 bytes: the first, the middle and the last. -/
theorem naLen0to16_of_one_le (h : 1 ≤ B.length) (h' : B.length ≤ 3) :
    let n := B.length
    let y := (B.getD 0 0).setWidth 32 + ((B.getD (n / 2) 0).setWidth 32 <<< 8)
    let z := nat32 n + ((B.getD (n - 1) 0).setWidth 32 <<< 2)
    naLen0to16 B = some (shiftMix ((y.setWidth 64 * k2) ^^^ (z.setWidth 64 * k0)) * k2) := by
  have h8 : ¬ 8 ≤ B.length := by omega
  have h4 : ¬ 4 ≤ B.length := by omega
  have h0 : 0 < B.length := h
  have hmid : B.length >>> 1 = B.length / 2 := Nat.shiftRight_one _
  simp only [naLen0to16, h8, h4, h0, hmid, if_true, if_false,
    getElem?_eq_some_getD (B := B) (i := 0) (by omega),
    getElem?_eq_some_getD (B := B) (i := B.length / 2) (by omega),
    getElem?_eq_some_getD (B := B) (i := B.length - 1) (by omega)]
  rfl

theorem naLen0to16_nil : naLen0to16 [] = some k2 := rfl

theorem naLen17to32_eq (h : 17 ≤ B.length) :
    let n := B.length
    let mul := k2 + 2 * nat64 n
    let a := le64 B 0 * k1
    let b := le64 B 8
    let c := le64 B (n - 8) * mul
    let d := le64 B (n - 16) * k2
    naLen17to32 B = some (hashLen16M (rotate64 (a + b) 43 + rotate64 c 30 + d)
      (a + rotate64 (b + k2) 18 + c) mul) := by
  simp (disch := omega) [naLen17to32, fetch64_inside]

theorem naLen33to64_eq (h : 33 ≤ B.length) :
    let n := B.length
    let mul := k2 + 2 * nat64 n
    let a := le64 B 0 * k2
    let b := le64 B 8
    let c := le64 B (n - 8) * mul
    let d := le64 B (n - 16) * k2
    let y := rotate64 (a + b) 43 + rotate64 c 30 + d
    let z := hashLen16M y (a + rotate64 (b + k2) 18 + c) mul
    let e := le64 B 16 * mul
    let f := le64 B 24
    let g := (y + le64 B (n - 32)) * mul
    let h := (z + le64 B (n - 24)) * mul
    naLen33to64 B = some (hashLen16M (rotate64 (e + f) 43 + rotate64 g 30 + h)
      (e + rotate64 (f + a) 18 + g) mul) := by
  simp (disch := omega) [naLen33to64, fetch64_inside]

/-! ## NA's buckets up to 64 bytes (R147, R170) -/

theorem naHash64_of_le_16 (h : B.length ≤ 16) : naHash64 B = naLen0to16 B := if_pos h

theorem naHash64_of_le_32 (h : 17 ≤ B.length) (h' : B.length ≤ 32) :
    naHash64 B = naLen17to32 B := by
  rw [naHash64, if_neg (by omega), if_pos h']

theorem naHash64_of_le_64 (h : 33 ≤ B.length) (h' : B.length ≤ 64) :
    naHash64 B = naLen33to64 B := by
  rw [naHash64, if_neg (by omega), if_neg (by omega), if_pos h']

/-! ## The commands on a buffer of their domain -/

section Completion

variable {s : State} (hf : s.fault = false) (hB : BufferIs s B)

include hf hB

theorem exec_naLen0to16 (hn : B.length ≤ 16) {h : U64} (hr : naLen0to16 B = some h) :
    exec .naLen0to16 s = .next (completedWith 0x10 h 0 s) :=
  exec_buffer_w64 .naLen0to16 hf rfl (decide_eq_true hn) rfl hB (by simp [bodyOf, hr])

theorem exec_naLen17to32 (hn : 17 ≤ B.length) (hn' : B.length ≤ 32) {h : U64}
    (hr : naLen17to32 B = some h) : exec .naLen17to32 s = .next (completedWith 0x11 h 0 s) :=
  exec_buffer_w64 .naLen17to32 hf rfl (decide_eq_true ⟨hn, hn'⟩) rfl hB (by simp [bodyOf, hr])

theorem exec_naLen33to64 (hn : 33 ≤ B.length) (hn' : B.length ≤ 64) {h : U64}
    (hr : naLen33to64 B = some h) : exec .naLen33to64 s = .next (completedWith 0x12 h 0 s) :=
  exec_buffer_w64 .naLen33to64 hf rfl (decide_eq_true ⟨hn, hn'⟩) rfl hB (by simp [bodyOf, hr])

theorem exec_naH64 {h : U64} (hr : naHash64 B = some h) :
    exec .naH64 s = .next (completedWith 0x40 h 0 s) :=
  exec_buffer_w64 .naH64 hf rfl rfl rfl hB (by simp [bodyOf, hr])

end Completion

end Sys2Proof.Proofs

/-! ## The statements -/

namespace Sys2Proof.Proofs.Kernels

open Sys2Proof.Machine Sys2Proof.Laws

/-- Settles O37: one lemma per sub-case of the length, then the command by its domain. -/
theorem naLen0to16 : Obligations.NaLen0to16 := by
  refine ⟨rfl, fun B => ⟨fun h _ => naLen0to16_of_eight_le h, naLen0to16_of_four_le,
    naLen0to16_of_one_le, fun h => ?_⟩, fun s B hf hn hB => ?_, fun s hf hn => ?_, rfl, rfl, rfl⟩
  · rw [List.length_eq_zero_iff.mp h]
    exact naLen0to16_nil
  · obtain ⟨h, hr⟩ := naLen0to16_some hn
    exact ⟨h, hr, exec_naLen0to16 hf hB hn hr⟩
  · exact exec_domain .naLen0to16 hf rfl (decide_eq_false (by omega))

/-- Settles O38: the four words are inside the buffer, and the command goes by its domain. -/
theorem naLen17to32 : Obligations.NaLen17to32 := by
  refine ⟨rfl, fun B h _ => naLen17to32_eq h, fun s B hf hn hn' hB => ?_, fun s hf hn => ?_,
    by decide +kernel, by decide +kernel⟩
  · obtain ⟨h, hr⟩ := naLen17to32_some hn
    exact ⟨h, hr, exec_naLen17to32 hf hB hn hn' hr⟩
  · exact exec_domain .naLen17to32 hf rfl (decide_eq_false (by omega))

/-- Settles O39: the eight words are inside the buffer, and the command goes by its domain. -/
theorem naLen33to64 : Obligations.NaLen33to64 := by
  refine ⟨rfl, fun B h _ => naLen33to64_eq h, fun s B hf hn hn' hB => ?_, fun s hf hn => ?_,
    by decide +kernel, by decide +kernel⟩
  · obtain ⟨h, hr⟩ := naLen33to64_some hn
    exact ⟨h, hr, exec_naLen33to64 hf hB hn hn' hr⟩
  · exact exec_domain .naLen33to64 hf rfl (decide_eq_false (by omega))

/-- Settles O40: WeakMem is Weak32 on the four words of the first 32 bytes, and looks no further. -/
theorem weakStep : Obligations.WeakStep := by
  refine ⟨rfl, rfl, fun _ _ _ _ _ _ => rfl, fun B i a b h => weakMem_some h a b,
    fun s hf => exec_registers_pair .weak32 hf rfl rfl rfl rfl, fun s B hf hn hB => ?_,
    fun s hf hn => ?_, fun B C a b h => ?_, rfl, rfl, by decide +kernel, by decide +kernel⟩
  · have hr := weakMem_some (B := B) (i := 0) hn s.x0 s.x1
    exact ⟨_, hr, exec_buffer_pair .weak32m hf rfl (decide_eq_true hn) rfl hB (by simp [bodyOf, hr])⟩
  · exact exec_domain .weak32m hf rfl (decide_eq_false (by omega))
  · rw [← weakMem_take B, h, weakMem_take C]

/-- Settles O41: NA_H64's value on a bucket is that bucket's kernel. -/
theorem kernelsAgreeWithTheFamily : Obligations.KernelsAgreeWithTheFamily := by
  intro s B hf hB
  obtain ⟨h, hr⟩ := naHash64_some B
  refine ⟨h, hr, exec_naH64 hf hB hr, fun hn => ?_, fun hn hn' => ?_, fun hn hn' => ?_⟩
  · exact exec_naLen0to16 hf hB hn (naHash64_of_le_16 hn ▸ hr)
  · exact exec_naLen17to32 hf hB hn hn' (naHash64_of_le_32 hn hn' ▸ hr)
  · exact exec_naLen33to64 hf hB hn hn' (naHash64_of_le_64 hn hn' ▸ hr)

end Sys2Proof.Proofs.Kernels

/-! # The 64-bit families NA, UO and XO

Settles the statements of 42_family_na_uo_xo.md. The facts come first: the value of each block, tail
and kernel on its lengths, the bucket each hash puts a buffer in, and how the commands complete; the
settled statements follow, in a namespace of their own. -/

namespace Sys2Proof.Proofs

open Sys2Proof.Machine Sys2Proof.Laws

variable {B : Bytes}

/-! ## The offsets of the long paths (R171, R181) -/

/-- Each of the `(n - 1) / 64` passes reads 64 bytes inside the buffer. -/
theorem pass_inside {n j : Nat} (h : j < (n - 1) / 64) : 64 * j + 64 ≤ n := by omega

/-- The tails mask `n - 1` with 63, which is what the loop leaves of it. -/
theorem mask_63_eq_mod (n : Nat) : n &&& 63 = n % 64 := Nat.and_two_pow_sub_one_eq_mod n 6

/-! ## NA's block, tail and refold (R171, R172, R173) -/

theorem naBlock_eq {p : Nat} (h : p + 64 ≤ B.length) (s : NaAcc) : naBlock B p s =
    let weak := fun (q : Nat) (a b : U64) =>
      weak32 (le64 B q) (le64 B (q + 8)) (le64 B (q + 16)) (le64 B (q + 24)) a b
    let x := (rotate64 (s.x + s.y + s.v1 + le64 B (p + 8)) 37 * k1) ^^^ s.w2
    let y := rotate64 (s.y + s.v2 + le64 B (p + 48)) 42 * k1 + s.v1 + le64 B (p + 40)
    let z := rotate64 (s.z + s.w1) 33 * k1
    let v := weak p (s.v2 * k1) (x + s.w1)
    let w := weak (p + 32) (z + s.w2) (y + le64 B (p + 16))
    some (NaAcc.mk z y x v.1 v.2 w.1 w.2) := by
  simp (disch := omega) [naBlock, fetch64_inside, weakMem_some]

theorem naTail_eq (h : 64 ≤ B.length) (s : NaAcc) : naTail B s =
    let n := B.length
    let weak := fun (p : Nat) (a b : U64) =>
      weak32 (le64 B p) (le64 B (p + 8)) (le64 B (p + 16)) (le64 B (p + 24)) a b
    let mul := k1 + ((s.z &&& 0xFF) <<< 1)
    let q := n - 64
    let w0 := s.w1 + nat64 ((n - 1) % 64)
    let v1 := s.v1 + w0
    let w1 := w0 + v1
    let x := (rotate64 (s.x + s.y + v1 + le64 B (q + 8)) 37 * mul) ^^^ (s.w2 * 9)
    let y := rotate64 (s.y + s.v2 + le64 B (q + 48)) 42 * mul + v1 * 9 + le64 B (q + 40)
    let z := rotate64 (s.z + w1) 33 * mul
    let v := weak q (s.v2 * mul) (x + w1)
    let w := weak (q + 32) (z + s.w2) (y + le64 B (q + 16))
    some (hashLen16M (hashLen16M v.1 w.1 mul + shiftMix y * k0 + x)
      (hashLen16M v.2 w.2 mul + z) mul) := by
  simp (disch := omega) [naTail, mask_63_eq_mod, fetch64_inside, weakMem_some]

theorem naHash64WithSeeds_eq {h : U64} (hr : naHash64 B = some h) (s0 s1 : U64) :
    naHash64WithSeeds B s0 s1 = some (hashLen16 (h - s0) s1) := by
  simp [naHash64WithSeeds, hr]

theorem naHash64WithSeed_eq {h : U64} (hr : naHash64 B = some h) (seed : U64) :
    naHash64WithSeed B seed = some (hashLen16 (h - k2) seed) :=
  naHash64WithSeeds_eq hr k2 seed

/-! ## UO's block and tail, and its buckets (R181, R182, R183) -/

theorem uoBlock_eq {p : Nat} (h : p + 64 ≤ B.length) (mul : U64) (s : UoAcc) :
    uoBlock B mul p s =
      let a := fun (i : Nat) => le64 B (p + 8 * i)
      let x := rotate64 (s.x + a 0 + a 1) 26 * 9
      let y := rotate64 (s.y + a 2) 29
      let v1 := rotate64 (s.v1 + a 4) 33 + a 2
      let v2 := rotate64 (s.v2 + a 5 + a 1) 30 + a 3
      let w1 := ((s.w1 + a 6) ^^^ x) * 9 + a 4
      let z := rotate64 ((s.z + a 3) * mul) 32 + (s.w2 + a 7)
      let w2 := s.w2 + a 7 + z + a 5 + a 6
      let u := z * 9 + a 0 + a 6
      let x := x + a 1
      let y' := s.u + a 7 + v1
      let v1 := v1 + x - y'
      let v2 := v2 + w1
      let w1 := w1 + v2
      let w2 := w2 + x - y'
      some (UoAcc.mk u v1 v2 w1 (rotate64 w2 34) (x + w2) y' y) := by
  simp (disch := omega) [uoBlock, fetch64_inside]

theorem uoTail_eq (h : 64 ≤ B.length) (mul : U64) (s : UoAcc) : uoTail B mul s =
    let n := B.length
    let weak := fun (p : Nat) (a b : U64) =>
      weak32 (le64 B p) (le64 B (p + 8)) (le64 B (p + 16)) (le64 B (p + 24)) a b
    let q := n - 64
    let v2 := rotate64 s.v2 28
    let v1 := rotate64 s.v1 20
    let w1 := s.w1 + nat64 ((n - 1) % 64)
    let u := s.u * 9 + s.y
    let y0 := s.y + u
    let x := (rotate64 (y0 - s.x + v1 + le64 B (q + 8)) 37 * mul) ^^^ (s.w2 * 9)
    let y := rotate64 (y0 ^^^ v2 ^^^ le64 B (q + 48)) 42 * mul + v1 + le64 B (q + 40)
    let z := rotate64 (s.z + w1) 33 * mul
    let v := weak q (v2 * mul) (x + w1)
    let w := weak (q + 32) (z + s.w2) (y + le64 B (q + 16))
    some (uoFold (hashLen16M (v.1 + x) (w.1 ^^^ y) mul + z - u)
      (uoFold (v.2 + y) (w.2 + z) k2 30 ^^^ x) k2 31) := by
  simp (disch := omega) [uoTail, mask_63_eq_mod, fetch64_inside, weakMem_some]

theorem uoHash64_of_le_64 (h : B.length ≤ 64) : uoHash64 B = naHash64 B := if_pos h

theorem uoHash64WithSeed_of_le_64 (h : B.length ≤ 64) (seed : U64) :
    uoHash64WithSeed B seed = naHash64WithSeed B seed := if_pos h

theorem uoHash64WithSeeds_of_le_64 (h : B.length ≤ 64) (s0 s1 : U64) :
    uoHash64WithSeeds B s0 s1 = naHash64WithSeeds B s0 s1 := if_pos h

theorem uoHash64_of_gt_64 (h : 64 < B.length) : uoHash64 B = uoHash64WithSeeds B 81 0 :=
  if_neg (by omega)

theorem uoHash64WithSeed_of_gt_64 (h : 64 < B.length) (seed : U64) :
    uoHash64WithSeed B seed = uoHash64WithSeeds B 0 seed := if_neg (by omega)

/-! ## XO's kernels and buckets (R190 to R193) -/

theorem xoH32_eq {o m : Nat} (h : 16 ≤ m) (hm : o + m ≤ B.length) (mul seed0 seed1 : U64) :
    xoH32 B o m mul seed0 seed1 =
      let a := le64 B o * k1
      let b := le64 B (o + 8)
      let c := le64 B (o + m - 8) * mul
      let d := le64 B (o + m - 16) * k2
      let u := rotate64 (a + b) 43 + rotate64 c 30 + d + seed0
      let v := a + rotate64 (b + k2) 18 + c + seed1
      let a' := shiftMix ((u ^^^ v) * mul)
      some (shiftMix ((v ^^^ a') * mul)) := by
  simp (disch := omega) [xoH32, fetch64_inside]

theorem xoLen33to64_eq (h : 33 ≤ B.length) :
    let mul1 := k2 - 30 + 2 * nat64 B.length
    ∃ h0 h1, xoH32 B 0 32 (k2 - 30) 0 0 = some h0 ∧ xoH32 B (B.length - 32) 32 mul1 0 0 = some h1
      ∧ xoLen33to64 B = some ((h1 * mul1 + h0) * mul1) := by
  intro mul1
  obtain ⟨h0, e0⟩ := xoH32_some (B := B) (o := 0) (m := 32) (by omega) (by omega) (k2 - 30) 0 0
  obtain ⟨h1, e1⟩ := xoH32_some (B := B) (o := B.length - 32) (m := 32) (by omega) (by omega)
    mul1 0 0
  refine ⟨h0, h1, e0, e1, ?_⟩
  simp only [xoLen33to64, e0, e1, mul1, Option.bind_eq_bind, Option.bind_some]
  rfl

theorem xoLen65to96_eq (h : 65 ≤ B.length) :
    let mul1 := k2 - 114 + 2 * nat64 B.length
    ∃ h0 h1 h2, xoH32 B 0 32 (k2 - 114) 0 0 = some h0 ∧ xoH32 B 32 32 mul1 0 0 = some h1
      ∧ xoH32 B (B.length - 32) 32 mul1 h0 h1 = some h2
      ∧ xoLen65to96 B = some ((h2 * 9 + (h0 >>> 17) + (h1 >>> 21)) * mul1) := by
  intro mul1
  obtain ⟨h0, e0⟩ := xoH32_some (B := B) (o := 0) (m := 32) (by omega) (by omega) (k2 - 114) 0 0
  obtain ⟨h1, e1⟩ := xoH32_some (B := B) (o := 32) (m := 32) (by omega) (by omega) mul1 0 0
  obtain ⟨h2, e2⟩ := xoH32_some (B := B) (o := B.length - 32) (m := 32) (by omega) (by omega)
    mul1 h0 h1
  refine ⟨h0, h1, h2, e0, e1, e2, ?_⟩
  simp only [xoLen65to96, e0, e1, e2, mul1, Option.bind_eq_bind, Option.bind_some]
  rfl

/-- Up to 32 bytes XO takes NA's kernels. -/
theorem xoHash64_of_le_32 (h : B.length ≤ 32) : xoHash64 B = naHash64 B := by
  simp only [xoHash64, naHash64, h, if_true]

theorem xoHash64_of_le_256 (h : 97 ≤ B.length) (h' : B.length ≤ 256) :
    xoHash64 B = naHash64 B := by
  simp (disch := omega) only [xoHash64, if_neg, if_pos]

theorem xoHash64_of_ge_257 (h : 257 ≤ B.length) : xoHash64 B = uoHash64 B := by
  simp (disch := omega) only [xoHash64, if_neg]

/-! ## The commands -/

section Completion

variable {s : State} (hf : s.fault = false)

include hf

theorem exec_uoH : exec .uoH s
    = .next (completedWith 0x1C (uoFold s.x0 s.x1 s.x2 (s.x3.toNat % 64)) 0 s) := by
  rw [← rotateAmount64_eq_mod]
  exact exec_registers_w64 .uoH hf rfl rfl rfl rfl

variable (hB : BufferIs s B) {h : U64}

include hB

/-- An ungated buffer command with a 64-bit datapath completes with its value (R87). -/
theorem exec_value64 (i : Instr) (hg : instrGate s.cfg i = noGate)
    (hd : instrDomain B.length i = true) (hb : (instrReads i).buffer = true) {o : Option U64}
    (hbody : bodyOf s i B = o.map .w64) (hr : o = some h) :
    exec i s = .next (completedWith i.opc h 0 s) :=
  exec_buffer_w64 i hf (by rw [hg]; rfl) hd hb hB (by rw [hbody, hr]; rfl)

end Completion

end Sys2Proof.Proofs

/-! ## The statements -/

namespace Sys2Proof.Proofs.NaUoXo

open Sys2Proof.Machine Sys2Proof.Laws

/-- Settles O42: the mixing step's four words are inside the buffer, and each command goes by its
domain. -/
theorem xoKernels : Obligations.XoKernels := by
  refine ⟨rfl, rfl, rfl, fun B o m mul s0 s1 h hm => xoH32_eq h hm mul s0 s1,
    fun B h _ => xoLen33to64_eq h, fun B h _ => xoLen65to96_eq h,
    fun s B hf hB => ⟨fun hn => ?_, fun hn hn' => ?_, fun hn hn' => ?_⟩,
    fun s hf => ⟨fun hn => ?_, fun hn => ?_, fun hn => ?_⟩, by decide +kernel, by decide +kernel,
    by decide +kernel, by decide +kernel, by decide +kernel, by decide +kernel⟩
  · obtain ⟨h, hr⟩ := xoH32_some (B := B) (o := 0) hn (by omega) s.x0 s.x1 s.x2
    exact ⟨h, hr, exec_value64 hf hB .xoH32 rfl (decide_eq_true hn) rfl rfl hr⟩
  · obtain ⟨h, hr⟩ := xoLen33to64_some hn
    exact ⟨h, hr, exec_value64 hf hB .xoLen33to64 rfl (decide_eq_true ⟨hn, hn'⟩) rfl rfl hr⟩
  · obtain ⟨h, hr⟩ := xoLen65to96_some hn
    exact ⟨h, hr, exec_value64 hf hB .xoLen65to96 rfl (decide_eq_true ⟨hn, hn'⟩) rfl rfl hr⟩
  · exact exec_domain .xoH32 hf rfl (decide_eq_false (by omega))
  · exact exec_domain .xoLen33to64 hf rfl (decide_eq_false (by omega))
  · exact exec_domain .xoLen65to96 hf rfl (decide_eq_false (by omega))

/-- Settles O46: the long path is its start, the fold of its blocks and its tail, and the seeded
forms refold the hash. -/
theorem naFamily : Obligations.NaFamily := by
  refine ⟨rfl, rfl, rfl, fun B => rfl, fun B h => ?_, fun B s0 s1 => ?_, fun s B hf hB => ?_, rfl,
    fun seed => ?_, rfl, fun B h hr => ?_, fun B seed => rfl, by decide +kernel,
    by decide +kernel, by decide +kernel, by decide +kernel, by decide +kernel, by decide +kernel⟩
  · exact (naLong64_foldl h fun j hj s => naBlock_eq (pass_inside hj) s).trans (naTail_eq h.le _)
  · obtain ⟨h, hr⟩ := naHash64_some B
    exact ⟨h, hr, naHash64WithSeeds_eq hr s0 s1, naHash64WithSeed_eq hr s1⟩
  · obtain ⟨h, hr⟩ := naHash64_some B
    exact ⟨h, hr, exec_naH64 hf hB hr, exec_value64 hf hB .fp64 rfl rfl rfl rfl hr,
      exec_value64 hf hB .naH64s rfl rfl rfl rfl (naHash64WithSeed_eq hr s.x0),
      exec_value64 hf hB .naH64ss rfl rfl rfl rfl (naHash64WithSeeds_eq hr s.x0 s.x1)⟩
  · rw [naHash64WithSeed_eq (h := k2) rfl, BitVec.sub_self]
    rfl
  · rw [naHash64WithSeeds_eq hr, BitVec.sub_self]
    rfl

/-- Settles O47: the long path is its start, the fold of its blocks and its tail, and the shorter
buffers are NA's. -/
theorem uoFamily : Obligations.UoFamily := by
  refine ⟨rfl, rfl, rfl, rfl, fun _ _ _ _ => rfl, fun s hf => exec_uoH hf,
    fun B s0 s1 h => ⟨uoHash64_of_le_64 h, uoHash64WithSeed_of_le_64 h s0,
      uoHash64WithSeeds_of_le_64 h s0 s1⟩,
    fun B seed h => ⟨uoHash64_of_gt_64 h, uoHash64WithSeed_of_gt_64 h seed⟩,
    fun B s0 s1 h => ?_, fun s B hf hB => ⟨?_, ?_, ?_⟩, by decide +kernel, by decide +kernel,
    by decide +kernel, by decide +kernel, by decide +kernel⟩
  · exact (uoHash64WithSeeds_foldl h s0 s1 fun j hj s => uoBlock_eq (pass_inside hj) _ s).trans
      (uoTail_eq h.le _ _)
  · obtain ⟨h, hr⟩ := uoHash64_some B
    exact ⟨h, hr, exec_value64 hf hB .uoH64 rfl rfl rfl rfl hr⟩
  · obtain ⟨h, hr⟩ := uoHash64WithSeed_some B s.x0
    exact ⟨h, hr, exec_value64 hf hB .uoH64s rfl rfl rfl rfl hr⟩
  · obtain ⟨h, hr⟩ := uoHash64WithSeeds_some B s.x0 s.x1
    exact ⟨h, hr, exec_value64 hf hB .uoH64ss rfl rfl rfl rfl hr⟩

/-- Settles O48: outside XO's own two kernels a bucket is NA's or UO's, and the seeded datapaths are
UO's. -/
theorem xoFamily : Obligations.XoFamily := by
  refine ⟨rfl, rfl, rfl, fun B => rfl, fun B => ⟨fun h => ?_, xoHash64_of_ge_257⟩,
    fun _ _ _ => ⟨rfl, rfl⟩, fun s B hf hB => ⟨?_, ?_, ?_⟩, by decide +kernel, by decide +kernel,
    by decide +kernel, by decide +kernel, by decide +kernel⟩
  · obtain h | ⟨h, h'⟩ := h
    · exact xoHash64_of_le_32 h
    · exact xoHash64_of_le_256 h h'
  · obtain ⟨h, hr⟩ := xoHash64_some B
    exact ⟨h, hr, exec_value64 hf hB .xoH64 rfl rfl rfl rfl hr⟩
  · obtain ⟨h, hr⟩ := uoHash64WithSeed_some B s.x0
    exact ⟨h, hr, exec_value64 hf hB .xoH64s rfl rfl rfl rfl hr,
      exec_value64 hf hB .uoH64s rfl rfl rfl rfl hr⟩
  · obtain ⟨h, hr⟩ := uoHash64WithSeeds_some B s.x0 s.x1
    exact ⟨h, hr, exec_value64 hf hB .xoH64ss rfl rfl rfl rfl hr,
      exec_value64 hf hB .uoH64ss rfl rfl rfl rfl hr⟩

end Sys2Proof.Proofs.NaUoXo

/-! # Families TE and NT

Settles the statement of 43_family_te_nt.md. The facts come first: the two sides of the threshold of
512 bytes, NT's values from TE's, and the gate the five commands share; the settled statement
follows, in a namespace of its own. -/

namespace Sys2Proof.Proofs

open Sys2Proof.Machine Sys2Proof.Laws

variable {B : Bytes}

/-! ## TE on the two sides of its threshold (R221 to R223) -/

theorem teHash64_of_lt_512 (h : B.length < 512) : teHash64 B = xoHash64 B := if_neg (by omega)

theorem teHash64WithSeed_of_lt_512 (h : B.length < 512) (seed : U64) :
    teHash64WithSeed B seed = xoHash64WithSeed B seed := if_neg (by omega)

theorem teHash64WithSeeds_of_lt_512 (h : B.length < 512) (s0 s1 : U64) :
    teHash64WithSeeds B s0 s1 = xoHash64WithSeeds B s0 s1 := if_neg (by omega)

theorem teHash64_of_ge_512 (h : 512 ≤ B.length) : teHash64 B = some (Config.teLong0 B) := if_pos h

theorem teHash64WithSeed_of_ge_512 (h : 512 ≤ B.length) (seed : U64) :
    teHash64WithSeed B seed = some (Config.teLong1 B seed) := if_pos h

theorem teHash64WithSeeds_of_ge_512 (h : 512 ≤ B.length) (s0 s1 : U64) :
    teHash64WithSeeds B s0 s1 = some (Config.teLong2 B s0 s1) := if_pos h

/-! ## NT from TE's value (R228, R229) -/

theorem ntHash32_eq {h : U64} (hr : teHash64 B = some h) : ntHash32 B = some (h.setWidth 32) :=
  congrArg (Option.map trunc32) hr

theorem ntHash32WithSeed_eq {seed : U32} {h : U64}
    (hr : teHash64WithSeed B (seed.setWidth 64) = some h) :
    ntHash32WithSeed B seed = some (h.setWidth 32) :=
  congrArg (Option.map trunc32) hr

/-! ## The gate (R220) -/

theorem capSubset_teGate_iff (c : CapSet) :
    capSubset teGate c = true ↔ c.simd128 = true ∧ c.ptr64 = true := by
  simp [capSubset, teGate]

/-- NT inherits TE's gate. -/
theorem instrGate_eq_teGate {i : Instr} (h : i ∈ [.teH64, .teH64s, .teH64ss, .ntH32, .ntH32s])
    (c : CoreConfig) : instrGate c i = teGate := by
  simp only [List.mem_cons, List.not_mem_nil, or_false] at h
  obtain rfl | rfl | rfl | rfl | rfl := h <;> rfl

/-- Without SIMD128 and PTR64 the buffer plays no part: the gate check comes before it. -/
theorem exec_misconfig_of_teGate_absent {s : State} {i : Instr} (hf : s.fault = false)
    (hc : ¬ (s.cfg.hwcap.simd128 = true ∧ s.cfg.hwcap.ptr64 = true))
    (hi : i ∈ [.teH64, .teH64s, .teH64ss, .ntH32, .ntH32s]) :
    exec i s = .next (faultedWith i.opc 2 s) := by
  apply exec_misconfig i hf
  rw [instrGate_eq_teGate hi, Bool.eq_false_iff]
  exact mt (capSubset_teGate_iff _).mp hc

/-! ## The commands where the gate is held -/

section Completion

variable {s : State} (hf : s.fault = false) (hg : capSubset teGate s.cfg.hwcap = true)
  (hB : BufferIs s B) {h : U64}

include hf hg hB

theorem exec_teH64 (hr : teHash64 B = some h) :
    exec .teH64 s = .next (completedWith 0x4C h 0 s) :=
  exec_buffer_w64 .teH64 hf hg rfl rfl hB (congrArg (Option.map Result.w64) hr)

theorem exec_teH64s (hr : teHash64WithSeed B s.x0 = some h) :
    exec .teH64s s = .next (completedWith 0x4D h 0 s) :=
  exec_buffer_w64 .teH64s hf hg rfl rfl hB (congrArg (Option.map Result.w64) hr)

theorem exec_teH64ss (hr : teHash64WithSeeds B s.x0 s.x1 = some h) :
    exec .teH64ss s = .next (completedWith 0x4E h 0 s) :=
  exec_buffer_w64 .teH64ss hf hg rfl rfl hB (congrArg (Option.map Result.w64) hr)

theorem exec_ntH32 (hr : teHash64 B = some h) :
    exec .ntH32 s = .next (completedWith 0x50 ((h.setWidth 32).setWidth 64) 0 s) :=
  exec_buffer_w32 .ntH32 hf hg rfl rfl hB (congrArg (Option.map Result.w32) (ntHash32_eq hr))

theorem exec_ntH32s (hr : teHash64WithSeed B ((s.x0.setWidth 32).setWidth 64) = some h) :
    exec .ntH32s s = .next (completedWith 0x51 ((h.setWidth 32).setWidth 64) 0 s) :=
  exec_buffer_w32 .ntH32s hf hg rfl rfl hB
    (congrArg (Option.map Result.w32) (ntHash32WithSeed_eq hr))

end Completion

end Sys2Proof.Proofs

/-! ## The statement -/

namespace Sys2Proof.Proofs.TeNt

open Sys2Proof.Machine Sys2Proof.Laws

/-- Settles O49: the threshold decides TE's datapath, NT's is its low half by definition, and the
shared gate decides between the value and MISCONFIG. -/
theorem teAndNtFamilies : Obligations.TeAndNtFamilies := by
  refine ⟨fun B s0 s1 h => ⟨teHash64_of_lt_512 h, teHash64WithSeed_of_lt_512 h s0,
      teHash64WithSeeds_of_lt_512 h s0 s1⟩,
    fun B s0 s1 h => ⟨teHash64_of_ge_512 h, teHash64WithSeed_of_ge_512 h s0,
      teHash64WithSeeds_of_ge_512 h s0 s1⟩,
    fun B seed => ⟨rfl, rfl⟩, fun s B hf hsimd hptr hB => ?_,
    fun s i hf hc hi => exec_misconfig_of_teGate_absent hf hc hi⟩
  have hg : capSubset teGate s.cfg.hwcap = true := (capSubset_teGate_iff _).mpr ⟨hsimd, hptr⟩
  refine ⟨?_, ?_, ?_, ?_⟩
  · obtain ⟨h, hr⟩ := teHash64_some B
    exact ⟨h, hr, exec_teH64 hf hg hB hr, exec_ntH32 hf hg hB hr⟩
  · obtain ⟨h, hr⟩ := teHash64WithSeed_some B s.x0
    exact ⟨h, hr, exec_teH64s hf hg hB hr⟩
  · obtain ⟨h, hr⟩ := teHash64WithSeeds_some B s.x0 s.x1
    exact ⟨h, hr, exec_teH64ss hf hg hB hr⟩
  · obtain ⟨h, hr⟩ := teHash64WithSeed_some B ((s.x0.setWidth 32).setWidth 64)
    exact ⟨h, hr, exec_ntH32s hf hg hB hr⟩

end Sys2Proof.Proofs.TeNt

/-! # Family MK

Settles the statements of 44_family_mk.md. The facts come first: the byte loop as a fold, each
kernel on its lengths, the parts of the long path, the buckets of the two hashes and how the
commands complete; the settled statements follow, in a namespace of their own. -/

namespace Sys2Proof.Proofs

open Sys2Proof.Machine Sys2Proof.Laws

variable {B : Bytes}

/-! ## The byte loop (R240) -/

/-- A signed byte from 0x80 on is the unsigned byte with the 24 bits above it set (R7). -/
theorem sext32_eq_ite (v : Byte) :
    sext32 v = if v.toNat < 128 then v.setWidth 32 else v.setWidth 32 + 0xFFFFFF00 := by
  have hmsb : v.msb = decide (128 ≤ v.toNat) := BitVec.msb_eq_decide v
  split
  case isTrue hv => exact BitVec.signExtend_eq_setWidth_of_msb_false (by simpa [hmsb] using hv)
  case isFalse hv =>
    have hadd : (0xFFFFFF00 : U32).toNat = 2 ^ 32 - 2 ^ 8 := rfl
    apply BitVec.eq_of_toNat_eq
    rw [sext32, BitVec.toNat_signExtend, BitVec.toNat_add, BitVec.toNat_setWidth, hmsb, hadd,
      decide_eq_true (Nat.not_lt.mp hv), if_pos rfl]
    omega

/-- The byte loop folds its step over the bytes, from any `b` and `c`. -/
theorem mkBytes_eq_foldl (B : Bytes) (b c : U32) :
    mkBytes B b c = B.foldl (fun (p : U32 × U32) (v : Byte) =>
      let b := p.1 * c1 + (if v.toNat < 128 then v.setWidth 32 else v.setWidth 32 + 0xFFFFFF00)
      (b, p.2 ^^^ b)) (b, c) := by
  induction B generalizing b c with
  | nil => rfl
  | cons v bs ih => rw [mkBytes, ih, List.foldl_cons, sext32_eq_ite]

/-! ## The kernels on their lengths (R241, R242) -/

/-- The middle word of the 5 to 12 byte kernels starts at 0 below 8 bytes and at 4 from 8 on. -/
theorem middle_offset_eq_ite {n : Nat} (h : 5 ≤ n) (h' : n ≤ 12) :
    (n >>> 1) &&& 4 = if n < 8 then 0 else 4 := by
  interval_cases n <;> rfl

theorem mkLen5to12_eq (h : 5 ≤ B.length) (h' : B.length ≤ 12) (seed : U32) :
    mkLen5to12 B seed =
      let n := B.length
      let a := nat32 n + le32 B 0
      let b := nat32 n * 5 + le32 B (n - 4)
      let c := 9 + le32 B (if n < 8 then 0 else 4)
      let d := nat32 n * 5 + seed
      some (fmix (seed ^^^ mur c (mur b (mur a d)))) := by
  have hmid := middle_offset_eq_ite h h'
  have hin := middle_offset B.length h h'
  rw [hmid] at hin
  simp (disch := omega) [mkLen5to12, hmid, fetch32_inside]

theorem mkLen13to24_eq (h : 13 ≤ B.length) (seed : U32) :
    mkLen13to24 B seed =
      let n := B.length
      let b := le32 B 4
      let c := le32 B (n - 8)
      let d := le32 B (n / 2)
      let e := le32 B 0
      let f := le32 B (n - 4)
      let a1 := rotate32 (le32 B (n / 2 - 4)) 12 + f
      let h1 := mur c (d * c1 + nat32 n + seed) + a1
      let a2 := rotate32 a1 3 + c
      let h2 := mur e h1 + a2
      let a3 := rotate32 (a2 + f) 12 + d
      some (fmix (mur (b ^^^ seed) h2 + a3)) := by
  simp (disch := omega) [mkLen13to24, Nat.shiftRight_one, fetch32_inside]

/-! ## The parts of the long path (R243) -/

/-- Each of the `(n - 1) / 20` blocks reads 20 bytes inside the buffer. -/
theorem block_inside {n j : Nat} (h : j < (n - 1) / 20) : 20 * j + 20 ≤ n := by omega

/-- The five tail words, two folded into `h`, two into `g` and one added to `f`. -/
theorem longStart32_eq (h : 20 ≤ B.length) :
    longStart32 B =
      let n := B.length
      let tail := fun (o : Nat) => mixWord (le32 B (n - o))
      some (Acc32.mk (mixInto (mixInto (nat32 n) (tail 4) 19) (tail 16) 19)
        (mixInto (mixInto (c1 * nat32 n) (tail 8) 19) (tail 12) 19) (c1 * nat32 n + tail 20)) := by
  simp (disch := omega) [longStart32, fetch32_inside]

theorem mkBlock_eq {p : Nat} (h : p + 20 ≤ B.length) (s : Acc32) :
    mkBlock B p s =
      let a := le32 B p
      let b := le32 B (p + 4)
      let c := le32 B (p + 8)
      let d := le32 B (p + 12)
      let e := le32 B (p + 16)
      let h := mur d (s.h + a) + e
      let g := mur c (s.g + b) + a
      let f := mur (b + e * c1) (s.f + c) + d + g
      some (Acc32.mk h (g + f) f) := by
  simp (disch := omega) [mkBlock, fetch32_inside]

/-! ## The buckets of the two hashes (R243, R244) -/

theorem mkHash32_of_le_4 (h : B.length ≤ 4) : mkHash32 B = some (mkLen0to4 B 0) := if_pos h

theorem mkHash32_of_le_12 (h : 5 ≤ B.length) (h' : B.length ≤ 12) :
    mkHash32 B = mkLen5to12 B 0 := by
  rw [mkHash32, if_neg (by omega), if_pos h']

theorem mkHash32_of_le_24 (h : 13 ≤ B.length) (h' : B.length ≤ 24) :
    mkHash32 B = mkLen13to24 B 0 := by
  rw [mkHash32, if_neg (by omega), if_neg (by omega), if_pos h']

theorem mkHash32WithSeed_of_le_24 (h : B.length ≤ 24) (seed : U32) :
    mkHash32WithSeed B seed = mkSeededSmall B seed := if_pos h

theorem mkSeededSmall_of_le_4 (h : B.length ≤ 4) (seed : U32) :
    mkSeededSmall B seed = some (mkLen0to4 B seed) := by
  rw [mkSeededSmall, if_neg (by omega), if_neg (by omega)]

theorem mkSeededSmall_of_le_12 (h : 5 ≤ B.length) (h' : B.length ≤ 12) (seed : U32) :
    mkSeededSmall B seed = mkLen5to12 B seed := by
  rw [mkSeededSmall, if_neg (by omega), if_pos h]

theorem mkSeededSmall_of_ge_13 (h : 13 ≤ B.length) (seed : U32) :
    mkSeededSmall B seed = mkLen13to24 B (seed * c1) := if_pos h

/-- Above 24 bytes the seeded form joins the first 24 bytes' kernel and the hash of the rest. -/
theorem mkHash32WithSeed_of_gt_24 (hn : 24 < B.length) {seed h t : U32}
    (hh : mkLen13to24 (B.take 24) (seed ^^^ nat32 B.length) = some h)
    (ht : mkHash32 (B.drop 24) = some t) : mkHash32WithSeed B seed = some (mur (t + seed) h) := by
  rw [mkHash32WithSeed, if_neg (by omega), hh, ht]
  rfl

/-- At seed 0 each seeded kernel is the hash's own: a seed of 0 times c1 is 0. -/
theorem mkSeededSmall_zero (h : B.length ≤ 24) : mkSeededSmall B 0 = mkHash32 B := by
  obtain h4 | ⟨h5, h12⟩ | h13 :
      B.length ≤ 4 ∨ (5 ≤ B.length ∧ B.length ≤ 12) ∨ 13 ≤ B.length := by omega
  · rw [mkSeededSmall_of_le_4 h4, mkHash32_of_le_4 h4]
  · rw [mkSeededSmall_of_le_12 h5 h12, mkHash32_of_le_12 h5 h12]
  · rw [mkSeededSmall_of_ge_13 h13, mkHash32_of_le_24 h13 h, zero_mul]

/-! ## The commands -/

section Completion

variable {s : State} (hf : s.fault = false) (hB : BufferIs s B) {h : U32}

include hf hB

/-- An ungated buffer command with a 32-bit datapath completes with its value (R87). -/
theorem exec_value32 (i : Instr) (hg : instrGate s.cfg i = noGate)
    (hd : instrDomain B.length i = true) (hb : (instrReads i).buffer = true) {o : Option U32}
    (hbody : bodyOf s i B = o.map .w32) (hr : o = some h) :
    exec i s = .next (completedWith i.opc (h.setWidth 64) 0 s) :=
  exec_buffer_w32 i hf (by rw [hg]; rfl) hd hb hB (by rw [hbody, hr]; rfl)

end Completion

end Sys2Proof.Proofs

/-! ## The statements -/

namespace Sys2Proof.Proofs.Mk

open Sys2Proof.Machine Sys2Proof.Laws

/-- Settles O43: the byte loop is a fold of signed bytes, the other kernels' words are inside the
buffer, and each command goes by its domain. -/
theorem mkKernels : Obligations.MkKernels := by
  refine ⟨rfl, rfl, rfl, fun B seed _ => ?_, fun B seed h h' => mkLen5to12_eq h h' seed,
    fun B seed h _ => mkLen13to24_eq h seed,
    fun s B hf hB => ⟨fun hn => ?_, fun hn hn' => ?_, fun hn hn' => ?_⟩,
    fun s hf => ⟨fun hn => ?_, fun hn => ?_, fun hn => ?_⟩, fun _ => rfl, rfl, rfl, rfl, rfl, rfl,
    rfl, rfl, by decide +kernel, by decide +kernel, by decide +kernel, by decide +kernel⟩
  · rw [mkLen0to4, mkBytes_eq_foldl]
  · exact exec_value32 hf hB .mkLen0to4 rfl (decide_eq_true hn) rfl rfl rfl
  · obtain ⟨h, hr⟩ := mkLen5to12_some hn hn' (s.x0.setWidth 32)
    exact ⟨h, hr, exec_value32 hf hB .mkLen5to12 rfl (decide_eq_true ⟨hn, hn'⟩) rfl rfl hr⟩
  · obtain ⟨h, hr⟩ := mkLen13to24_some hn (s.x0.setWidth 32)
    exact ⟨h, hr, exec_value32 hf hB .mkLen13to24 rfl (decide_eq_true ⟨hn, hn'⟩) rfl rfl hr⟩
  · exact exec_domain .mkLen0to4 hf rfl (decide_eq_false (by omega))
  · exact exec_domain .mkLen5to12 hf rfl (decide_eq_false (by omega))
  · exact exec_domain .mkLen13to24 hf rfl (decide_eq_false (by omega))

/-- Settles O50: the long path is its tail words, the fold of its blocks and its last fold, and the
seeded form takes a kernel up to 24 bytes and joins two values above. -/
theorem mkFamily : Obligations.MkFamily := by
  refine ⟨rfl, rfl, fun B => rfl, fun B h => ?_,
    fun B seed => ⟨fun h => ?_, fun h h' => ?_, fun h h' => ?_, fun hn => ?_⟩, fun B h => ?_,
    fun s B hf hB => ⟨?_, ?_⟩, by decide +kernel, by decide +kernel, by decide +kernel,
    by decide +kernel, by decide +kernel, by decide +kernel, by decide +kernel⟩
  · exact mkLong32_foldl (longStart32_eq (by omega)) fun j hj s => mkBlock_eq (block_inside hj) s
  · rw [mkHash32WithSeed_of_le_24 (by omega), mkSeededSmall_of_le_4 h]
  · rw [mkHash32WithSeed_of_le_24 (by omega), mkSeededSmall_of_le_12 h h']
  · rw [mkHash32WithSeed_of_le_24 h', mkSeededSmall_of_ge_13 h]
  · obtain ⟨h, hh⟩ := mkLen13to24_some (B := B.take 24) (by rw [List.length_take]; omega)
      (seed ^^^ nat32 B.length)
    obtain ⟨t, ht⟩ := mkHash32_some (B.drop 24)
    exact ⟨h, t, hh, ht, mkHash32WithSeed_of_gt_24 hn hh ht⟩
  · rw [mkHash32WithSeed_of_le_24 h, mkSeededSmall_zero h]
  · obtain ⟨h, hr⟩ := mkHash32_some B
    exact ⟨h, hr, exec_value32 hf hB .mkH32 rfl rfl rfl rfl hr,
      exec_value32 hf hB .fp32 rfl rfl rfl rfl hr⟩
  · obtain ⟨h, hr⟩ := mkHash32WithSeed_some B (s.x0.setWidth 32)
    exact ⟨h, hr, exec_value32 hf hB .mkH32s rfl rfl rfl rfl hr⟩

end Sys2Proof.Proofs.Mk

/-! # Families SU and SA

Settles the statement of 45_family_su_sa.md. The facts come first: both families on the two sides of
24 bytes, the two gates, and how a gated command completes; the settled statement follows, in a
namespace of its own. -/

namespace Sys2Proof.Proofs

open Sys2Proof.Machine Sys2Proof.Laws

variable {B : Bytes}

/-! ## Up to 24 bytes MK's kernels, above the opaque long paths (R261 to R265) -/

theorem suHash32_of_le_24 (h : B.length ≤ 24) : suHash32 B = mkHash32 B := by
  rw [suHash32, mkHash32, if_pos h, if_pos h]

theorem saHash32_of_le_24 (h : B.length ≤ 24) : saHash32 B = mkHash32 B := by
  rw [saHash32, mkHash32, if_pos h, if_pos h]

theorem suHash32WithSeed_of_le_24 (h : B.length ≤ 24) (seed : U32) :
    suHash32WithSeed B seed = mkHash32WithSeed B seed := by
  rw [suHash32WithSeed, if_pos h, mkHash32WithSeed_of_le_24 h]

theorem saHash32WithSeed_of_le_24 (h : B.length ≤ 24) (seed : U32) :
    saHash32WithSeed B seed = mkHash32WithSeed B seed := by
  rw [saHash32WithSeed, if_pos h, mkHash32WithSeed_of_le_24 h]

theorem suHash32_of_gt_24 (h : 24 < B.length) : suHash32 B = some (Config.suLong0 B) := by
  rw [suHash32, if_neg (by omega), if_neg (by omega), if_neg (by omega)]

theorem saHash32_of_gt_24 (h : 24 < B.length) : saHash32 B = some (Config.saLong0 B) := by
  rw [saHash32, if_neg (by omega), if_neg (by omega), if_neg (by omega)]

theorem suHash32WithSeed_of_gt_24 (h : 24 < B.length) (seed : U32) :
    suHash32WithSeed B seed = some (Config.suLong1 B seed) := if_neg (by omega)

theorem saHash32WithSeed_of_gt_24 (h : 24 < B.length) (seed : U32) :
    saHash32WithSeed B seed = some (Config.saLong1 B seed) := if_neg (by omega)

/-! ## The gates (R37, R260) -/

theorem capSubset_saGate_iff (c : CapSet) :
    capSubset saGate c = true ↔ c.simd128 = true ∧ c.crc32 = true := by
  simp [capSubset, saGate]

theorem capSubset_suGate_iff (c : CapSet) :
    capSubset suGate c = true ↔ c.simd128 = true ∧ c.crc32 = true ∧ c.aes = true := by
  simp [capSubset, suGate, and_assoc]

/-! ## The commands where the gate is held -/

section Completion

variable {s : State} (hf : s.fault = false) (hB : BufferIs s B)

include hf hB

/-- A buffer command whose gate is held completes with its 32-bit datapath's value (R87). -/
theorem exec_gated_value32 (i : Instr) (hg : capSubset (instrGate s.cfg i) s.cfg.hwcap = true)
    (hd : instrDomain B.length i = true) (hb : (instrReads i).buffer = true) {o : Option U32}
    (hbody : bodyOf s i B = o.map .w32) (ho : ∃ h, o = some h) :
    ∃ h, o = some h ∧ exec i s = .next (completedWith i.opc (h.setWidth 64) 0 s) := by
  obtain ⟨h, hr⟩ := ho
  exact ⟨h, hr, exec_buffer_w32 i hf hg hd hb hB (by rw [hbody, hr]; rfl)⟩

end Completion

end Sys2Proof.Proofs

/-! ## The statement -/

namespace Sys2Proof.Proofs.SuSa

open Sys2Proof.Machine Sys2Proof.Laws

/-- Settles O51: up to 24 bytes each hash is MK's and so takes MK's buckets, above it is its opaque
long path, and each gate decides between the value and MISCONFIG. -/
theorem suAndSaFamilies : Obligations.SuAndSaFamilies := by
  refine ⟨rfl, rfl, rfl, rfl,
    fun B seed h => ⟨suHash32_of_le_24 h, saHash32_of_le_24 h, suHash32WithSeed_of_le_24 h seed,
      saHash32WithSeed_of_le_24 h seed⟩,
    fun B seed h => ⟨suHash32_of_gt_24 h, saHash32_of_gt_24 h, suHash32WithSeed_of_gt_24 h seed,
      saHash32WithSeed_of_gt_24 h seed⟩,
    fun B => ⟨fun h => ?_, fun h h' => ?_, fun h h' => ?_⟩,
    fun B seed => ⟨fun h => ?_, fun h h' => ?_, fun h h' => ?_⟩,
    fun s B hf hB hsimd hcrc => ?_, fun s hf => ⟨fun hc => ?_, fun hc => ?_⟩,
    by decide +kernel, by decide +kernel, by decide +kernel, by decide +kernel,
    saHash32WithSeed_of_gt_24 (by decide) _⟩
  · rw [suHash32_of_le_24 (by omega), mkHash32_of_le_4 h]
  · rw [suHash32_of_le_24 (by omega), mkHash32_of_le_12 h h']
  · rw [suHash32_of_le_24 h', mkHash32_of_le_24 h h']
  · rw [suHash32WithSeed_of_le_24 (by omega), mkHash32WithSeed_of_le_24 (by omega),
      mkSeededSmall_of_le_4 h]
  · rw [suHash32WithSeed_of_le_24 (by omega), mkHash32WithSeed_of_le_24 (by omega),
      mkSeededSmall_of_le_12 h h']
  · rw [suHash32WithSeed_of_le_24 h', mkHash32WithSeed_of_le_24 h', mkSeededSmall_of_ge_13 h]
  · have hsa : capSubset saGate s.cfg.hwcap = true := (capSubset_saGate_iff _).mpr ⟨hsimd, hcrc⟩
    refine ⟨exec_gated_value32 hf hB .saH32 hsa rfl rfl rfl (saHash32_some B),
      exec_gated_value32 hf hB .saH32s hsa rfl rfl rfl (saHash32WithSeed_some B _), fun haes => ?_⟩
    have hsu : capSubset suGate s.cfg.hwcap = true :=
      (capSubset_suGate_iff _).mpr ⟨hsimd, hcrc, haes⟩
    exact ⟨exec_gated_value32 hf hB .suH32 hsu rfl rfl rfl (suHash32_some B),
      exec_gated_value32 hf hB .suH32s hsu rfl rfl rfl (suHash32WithSeed_some B _)⟩
  · have hsa : capSubset saGate s.cfg.hwcap = false :=
      Bool.eq_false_iff.mpr (mt (capSubset_saGate_iff _).mp hc)
    exact ⟨exec_misconfig .saH32 hf hsa, exec_misconfig .saH32s hf hsa⟩
  · have hsu : capSubset suGate s.cfg.hwcap = false :=
      Bool.eq_false_iff.mpr (mt (capSubset_suGate_iff _).mp hc)
    exact ⟨exec_misconfig .suH32 hf hsu, exec_misconfig .suH32s hf hsu⟩

end Sys2Proof.Proofs.SuSa

/-! # Family CC

Settles the statements of 46_family_cc.md. The facts come first: the 32-bit kernels, long path and
buckets beside MK's, CityMurmur's two branches, the parts of the 128-bit long path and how a command
with a pair completes; the settled statements follow, in a namespace of their own. -/

namespace Sys2Proof.Proofs

open Sys2Proof.Machine Sys2Proof.Laws

variable {B : Bytes}

/-! ## The 32-bit kernels on their lengths (R280, R281, R282) -/

theorem ccLen0to4_eq_mkLen0to4 (B : Bytes) : ccLen0to4 B = mkLen0to4 B 0 := rfl

/-- A seed of 0 changes neither the sum nor the exclusive or it enters in MK's kernel. -/
theorem ccLen5to12_eq_mkLen5to12 (B : Bytes) : ccLen5to12 B = mkLen5to12 B 0 := by
  simp [ccLen5to12, mkLen5to12]

theorem ccLen5to12_eq (h : 5 ≤ B.length) (h' : B.length ≤ 12) :
    ccLen5to12 B =
      let n := B.length
      let a := nat32 n + le32 B 0
      let b := nat32 n * 5 + le32 B (n - 4)
      let c := 9 + le32 B (if n < 8 then 0 else 4)
      some (fmix (mur c (mur b (mur a (nat32 n * 5))))) := by
  rw [ccLen5to12_eq_mkLen5to12, mkLen5to12_eq h h']
  simp

theorem ccLen13to24_eq (h : 13 ≤ B.length) :
    ccLen13to24 B =
      let n := B.length
      let a := le32 B (n / 2 - 4)
      let b := le32 B 4
      let c := le32 B (n - 8)
      let d := le32 B (n / 2)
      let e := le32 B 0
      let f := le32 B (n - 4)
      some (fmix (mur f (mur e (mur d (mur c (mur b (mur a (nat32 n)))))))) := by
  simp (disch := omega) [ccLen13to24, Nat.shiftRight_one, fetch32_inside]

/-! ## The 32-bit block, buckets and seeded form (R283, R284) -/

theorem ccBlock_eq {p : Nat} (h : p + 20 ≤ B.length) (s : Acc32) :
    ccBlock B p s =
      let b0 := mixWord (le32 B p)
      let b1 := le32 B (p + 4)
      let b2 := mixWord (le32 B (p + 8))
      let b3 := mixWord (le32 B (p + 12))
      let b4 := le32 B (p + 16)
      some (Acc32.mk (rotate32 (s.f + b1) 19 * c1 + b0)
        (bswap32 (mixInto (mixInto s.h b0 18) (b3 + b1) 19 + b4 * 5))
        (bswap32 ((rotate32 (s.g + b2) 18 * 5 + murAdd) ^^^ b4) * 5)) := by
  simp (disch := omega) [ccBlock, fetch32_inside]

/-- Up to 12 bytes CC's hash takes MK's kernels at seed 0. -/
theorem ccHash32_of_le_12 (h : B.length ≤ 12) : ccHash32 B = mkHash32 B := by
  rw [ccHash32, mkHash32, if_pos h, if_pos h, ccLen0to4_eq_mkLen0to4, ccLen5to12_eq_mkLen5to12]

theorem ccHash32WithSeed_of_le_24 (h : B.length ≤ 24) (seed : U32) :
    ccHash32WithSeed B seed = mkHash32WithSeed B seed := by
  rw [ccHash32WithSeed, if_pos h, mkHash32WithSeed_of_le_24 h]

/-- Above 24 bytes the seeded form joins MK's kernel on the first 24 bytes and CC's hash of the
rest. -/
theorem ccHash32WithSeed_of_gt_24 (hn : 24 < B.length) {seed h t : U32}
    (hh : mkLen13to24 (B.take 24) (seed ^^^ nat32 B.length) = some h)
    (ht : ccHash32 (B.drop 24) = some t) : ccHash32WithSeed B seed = some (mur (t + seed) h) := by
  rw [ccHash32WithSeed, if_neg (by omega), hh, ht]
  rfl

/-- The two seeded forms differ only in the unseeded hash of the bytes after the first 24. -/
theorem ccHash32WithSeed_eq_mk (h : B.length ≤ 24 ∨ ccHash32 (B.drop 24) = mkHash32 (B.drop 24))
    (seed : U32) : ccHash32WithSeed B seed = mkHash32WithSeed B seed := by
  by_cases hn : B.length ≤ 24
  · exact ccHash32WithSeed_of_le_24 hn seed
  · rw [ccHash32WithSeed, mkHash32WithSeed, if_neg hn, if_neg hn, h.resolve_left hn]

/-! ## CityMurmur (R285) -/

/-- Each of the `(m - 1) / 16` steps reads 16 bytes inside the string. -/
theorem cityStep_inside {m j : Nat} (h : j < (m - 1) / 16) : 16 * j + 16 ≤ m := by omega

theorem cityStep_eq {p : Nat} (h : p + 16 ≤ B.length) (s : CityAcc) :
    cityStep B p s =
      let a := (s.a ^^^ (shiftMix (le64 B p * k1) * k1)) * k1
      let c := (s.c ^^^ (shiftMix (le64 B (p + 8) * k1) * k1)) * k1
      some (CityAcc.mk a (s.b ^^^ a) c (s.d ^^^ c)) := by
  simp (disch := omega) [cityStep, fetch64_inside]

theorem cityShort_eq {h : U64} (hr : naLen0to16 B = some h) (lo hi : U64) :
    cityShort B lo hi =
      let a := shiftMix (lo * k1) * k1
      let c := hi * k1 + h
      some (CityAcc.mk a hi c (shiftMix (a + (if 8 ≤ B.length then le64 B 0 else c)))) := by
  by_cases h8 : 8 ≤ B.length
  · simp (disch := omega) [cityShort, hr, h8, fetch64_inside]
  · simp [cityShort, hr, h8]

/-- The two folds that end both branches. -/
def cityEnd (s : CityAcc) : U64 × U64 :=
  let a := hashLen16 s.a s.c
  let b := hashLen16 s.d s.b
  (a ^^^ b, hashLen16 b a)

theorem cityMurmur_of_le_16 (h : B.length ≤ 16) {lo hi : U64} {s : CityAcc}
    (hs : cityShort B lo hi = some s) : cityMurmur B lo hi = some (cityEnd s) := by
  simp only [cityMurmur, h, if_true, hs, Option.bind_eq_bind, Option.bind_some]
  rfl

theorem cityMurmur_of_gt_16 (h : 16 < B.length) {lo hi : U64} {s : CityAcc}
    (hs : cityLong B lo hi = some s) : cityMurmur B lo hi = some (cityEnd s) := by
  simp only [cityMurmur, Nat.not_le.mpr h, if_false, hs, Option.bind_eq_bind, Option.bind_some]
  rfl

/-! ## The parts of the 128-bit long path (R286) -/

/-- Each of the two blocks in each of the `m / 128` pairs reads 64 bytes inside the string. -/
theorem pair_block_inside {m j : Nat} (h : j < 2 * (m / 128)) : 64 * j + 64 ≤ m := by omega

/-- There are at most four tail chunks, so that from 128 bytes on none begins before the string. -/
theorem tail_chunk_inside {m j : Nat} (hm : 128 ≤ m) (h : j < (m % 128 + 31) / 32) :
    m - 32 * (j + 1) + 32 ≤ m := by omega

theorem city128Start_eq (h : 96 ≤ B.length) (lo hi : U64) :
    city128Start B lo hi =
      let z := nat64 B.length * k1
      let v1 := rotate64 (hi ^^^ k1) 49 * k1 + le64 B 0
      some (NaAcc.mk lo hi z v1 (rotate64 v1 42 * k1 + le64 B 8)
        (rotate64 (hi + z) 35 * k1 + lo) (rotate64 (lo + le64 B 88) 53 * k1)) := by
  simp (disch := omega) [city128Start, fetch64_inside]

theorem city128Chunk_eq {q : Nat} (h : q + 32 ≤ B.length) (s : NaAcc) :
    city128Chunk B q s =
      let w1 := s.w1 + le64 B (q + 16)
      let z := s.z + s.w2 + le64 B q
      let v := weak32 (le64 B q) (le64 B (q + 8)) (le64 B (q + 16)) (le64 B (q + 24))
        (s.v1 + z) s.v2
      some (NaAcc.mk (s.x * k0 + w1) (rotate64 (s.x + s.y) 42 * k0 + s.v2) z (v.1 * k0) v.2 w1
        (s.w2 + s.v1)) := by
  simp (disch := omega) [city128Chunk, fetch64_inside, weakMem_some]

/-! ## The buckets of the 128-bit hashes (R286, R287) -/

theorem city128WithSeed_of_lt_128 (h : B.length < 128) (lo hi : U64) :
    city128WithSeed B lo hi = cityMurmur B lo hi := if_pos h

theorem city128WithSeed_of_ge_128 (h : 128 ≤ B.length) (lo hi : U64) :
    city128WithSeed B lo hi = city128Long B lo hi := if_neg (by omega)

theorem ccHash128_of_lt_16 (h : B.length < 16) : ccHash128 B = city128WithSeed B k0 k1 :=
  if_neg (by omega)

/-- From 16 bytes on the first two words are the seed, the second with k0 added. -/
theorem ccHash128_of_ge_16 (h : 16 ≤ B.length) :
    ccHash128 B = city128WithSeed (B.drop 16) (le64 B 0) (le64 B 8 + k0) := by
  simp (disch := omega) [ccHash128, h, fetch64_inside]

/-! ## The commands -/

section Completion

variable {s : State} (hf : s.fault = false) (hB : BufferIs s B)

include hf hB

/-- A buffer command whose gate is held completes with both words of its datapath's pair (R87). -/
theorem exec_gated_value_pair (i : Instr)
    (hg : capSubset (instrGate s.cfg i) s.cfg.hwcap = true)
    (hd : instrDomain B.length i = true) (hb : (instrReads i).buffer = true)
    {o : Option (U64 × U64)} (hbody : bodyOf s i B = o.map .pair) (ho : ∃ p, o = some p) :
    ∃ p, o = some p ∧ exec i s = .next (completedWith i.opc p.1 p.2 s) := by
  obtain ⟨p, hr⟩ := ho
  exact ⟨p, hr, exec_buffer_pair i hf hg hd hb hB (by rw [hbody, hr]; rfl)⟩

end Completion

end Sys2Proof.Proofs

/-! ## The statements -/

namespace Sys2Proof.Proofs.Cc

open Sys2Proof.Machine Sys2Proof.Laws

/-- Settles O44: the first two kernels are MK's at seed 0, the third's words are inside the buffer,
and each command goes by its domain. -/
theorem ccKernels : Obligations.CcKernels := by
  refine ⟨rfl, rfl, rfl, ccLen0to4_eq_mkLen0to4, fun B h h' => ccLen5to12_eq h h',
    ccLen5to12_eq_mkLen5to12, fun B h _ => ccLen13to24_eq h,
    fun s B hf hB => ⟨fun hn => ?_, fun hn hn' => ?_, fun hn hn' => ?_⟩,
    fun s hf => ⟨fun hn => ?_, fun hn => ?_, fun hn => ?_⟩, rfl, rfl, rfl, by decide +kernel,
    by decide +kernel⟩
  · exact exec_value32 hf hB .ccLen0to4 rfl (decide_eq_true hn) rfl rfl rfl
  · exact exec_gated_value32 hf hB .ccLen5to12 rfl (decide_eq_true ⟨hn, hn'⟩) rfl rfl
      (ccLen5to12_some hn hn')
  · exact exec_gated_value32 hf hB .ccLen13to24 rfl (decide_eq_true ⟨hn, hn'⟩) rfl rfl
      (ccLen13to24_some hn)
  · exact exec_domain .ccLen0to4 hf rfl (decide_eq_false (by omega))
  · exact exec_domain .ccLen5to12 hf rfl (decide_eq_false (by omega))
  · exact exec_domain .ccLen13to24 hf rfl (decide_eq_false (by omega))

/-- Settles O45: each branch gives its accumulators, the longer one's by the fold of its steps, and
the two last folds are shared. -/
theorem cityMurmur : Obligations.CityMurmur := by
  refine ⟨rfl, fun S lo hi hS => ?_, fun S lo hi hS => ?_, fun s B hf hn hB => ?_,
    fun s hf hn => ?_, by decide +kernel, by decide +kernel⟩
  · obtain ⟨h, hr⟩ := naLen0to16_some hS
    have hend := cityMurmur_of_le_16 hS (cityShort_eq hr lo hi)
    refine ⟨h, hr, ?_, hend⟩
    rintro rfl
    exact Option.some.inj (hr.symm.trans naLen0to16_nil)
  · exact cityMurmur_of_gt_16 hS
      (cityLong_foldl hS lo hi fun j hj s => cityStep_eq (cityStep_inside hj) s)
  · exact exec_gated_value_pair hf hB .ccCitymurmur rfl (decide_eq_true hn) rfl rfl
      (cityMurmur_some B _ _)
  · exact exec_domain .ccCitymurmur hf rfl (decide_eq_false (by omega))

/-- Settles O52: the long path is its tail words, the fold of its blocks and its last fold; up to 24
bytes the seeded form is MK's, and above it differs in the unseeded hash of the rest alone. -/
theorem cc32Family : Obligations.Cc32Family := by
  refine ⟨rfl, rfl, fun B => rfl, fun B h => ?_,
    fun B seed => ⟨fun h => ?_, fun h h' => ?_, fun h h' => ?_, fun hn => ?_⟩,
    fun B seed h => ccHash32WithSeed_eq_mk h seed, fun B => ccHash32_of_le_12, fun B seed h => ?_,
    fun s B hf hB => ⟨exec_gated_value32 hf hB .ccH32 rfl rfl rfl rfl (ccHash32_some B),
      exec_gated_value32 hf hB .ccH32s rfl rfl rfl rfl (ccHash32WithSeed_some B _)⟩,
    by decide +kernel, by decide +kernel, by decide +kernel, by decide +kernel, by decide +kernel⟩
  · exact ccLong32_foldl (longStart32_eq (by omega)) fun j hj s => ccBlock_eq (block_inside hj) s
  · rw [ccHash32WithSeed_of_le_24 (by omega), mkHash32WithSeed_of_le_24 (by omega),
      mkSeededSmall_of_le_4 h]
  · rw [ccHash32WithSeed_of_le_24 (by omega), mkHash32WithSeed_of_le_24 (by omega),
      mkSeededSmall_of_le_12 h h']
  · rw [ccHash32WithSeed_of_le_24 h', mkHash32WithSeed_of_le_24 h', mkSeededSmall_of_ge_13 h]
  · obtain ⟨h, hh⟩ := mkLen13to24_some (B := B.take 24) (by rw [List.length_take]; omega)
      (seed ^^^ nat32 B.length)
    obtain ⟨t, ht⟩ := ccHash32_some (B.drop 24)
    exact ⟨h, t, hh, ht, ccHash32WithSeed_of_gt_24 hn hh ht⟩
  · have htail : (B.drop 24).length ≤ 12 := by rw [List.length_drop]; omega
    exact ccHash32WithSeed_eq_mk (.inr (ccHash32_of_le_12 htail)) seed

/-- Settles O53: the long path is its start, the fold of its blocks, the step between, the fold of
its tail chunks and its last folds; the shorter strings are CityMurmur's. -/
theorem cc128Family : Obligations.Cc128Family := by
  refine ⟨rfl, rfl, fun B => ⟨ccHash128_of_ge_16, ccHash128_of_lt_16⟩,
    fun S lo hi h => city128WithSeed_of_lt_128 h lo hi, fun S lo hi h => ?_,
    fun s B hf hB => ⟨exec_gated_value_pair hf hB .ccH128 rfl rfl rfl rfl (ccHash128_some B),
      exec_gated_value_pair hf hB .ccH128s rfl rfl rfl rfl (city128WithSeed_some B _ _)⟩,
    by decide +kernel, by decide +kernel, by decide +kernel, by decide +kernel⟩
  rw [city128WithSeed_of_ge_128 h]
  exact city128Long_foldl (city128Start_eq (by omega) lo hi)
    (fun j hj s => naBlock_eq (pair_block_inside hj) s)
    (fun j hj s => city128Chunk_eq (tail_chunk_inside h hj) s)

end Sys2Proof.Proofs.Cc

/-! # The public API

Settles the statements of 47_dispatch_api.md. The facts come first: which configurations are
admitted and what refuses a step, the agreements of the selected hashes, how an API
command completes, and what DEBUG changes of one; the settled statements follow, in a namespace of
their own. -/

namespace Sys2Proof.Proofs

open Sys2Proof.Machine Sys2Proof.Laws

/-! ## The admitted configurations (R310) -/

theorem capSubset_sel32Gate_iff (x : Sel32) (c : CapSet) :
    capSubset (sel32Gate x) c = true ↔
      (x = .nt → c.simd128 = true ∧ c.ptr64 = true)
      ∧ (x = .su → c.simd128 = true ∧ c.crc32 = true ∧ c.aes = true)
      ∧ (x = .sa → c.simd128 = true ∧ c.crc32 = true) := by
  cases x with
  | mk => simp [sel32Gate, noGate, capSubset]
  | sa => simp [sel32Gate, capSubset_saGate_iff]
  | su => simp [sel32Gate, capSubset_suGate_iff]
  | nt => simp [sel32Gate, capSubset_teGate_iff]

theorem capSubset_sel64Gate_iff (x : Sel64) (c : CapSet) :
    capSubset (sel64Gate x) c = true ↔ (x = .te → c.simd128 = true ∧ c.ptr64 = true) := by
  cases x with
  | xo => simp [sel64Gate, noGate, capSubset]
  | te => simp [sel64Gate, capSubset_teGate_iff]

theorem capSubset_sel64sGate_iff (x : Sel64S) (c : CapSet) :
    capSubset (sel64sGate x) c = true ↔ (x = .te → c.simd128 = true ∧ c.ptr64 = true) := by
  cases x with
  | te => simp [sel64sGate, capSubset_teGate_iff]
  | _ => simp [sel64sGate, noGate, capSubset]

theorem configAdmitted_iff (c : CoreConfig) :
    configAdmitted c = true ↔
      capSubset (sel32Gate c.sel32) c.claimcap = true
      ∧ capSubset (sel64Gate c.sel64) c.claimcap = true
      ∧ capSubset (sel64sGate c.sel64s) c.claimcap = true := by
  simp [configAdmitted, and_assoc]

/-- A command is refused on side-effect memory and nowhere else (R65). -/
theorem exec_refused {i : Instr} {s : State} {r : Refusal} (h : exec i s = .refused r) :
    r = .sideEffectMemory := by
  rw [exec_eq_issue] at h
  rcases issue_cases i s (bodyOf s i) with ⟨t, ht⟩ | ⟨why, ht, -⟩ | ⟨ht, -⟩ | ⟨ht, -⟩
  · cases ht.symm.trans h
  · cases ht.symm.trans h
  · exact (Host.Outcome.refused.inj (ht.symm.trans h)).symm
  · cases ht.symm.trans h

theorem issueWord_refused {v : U64} {s : State} {r : Refusal} (h : issueWord v s = .refused r) :
    r = .sideEffectMemory := by
  unfold issueWord at h
  split at h
  · cases h
  · split at h
    · exact exec_refused h
    · cases h

/-- An access of the host has refusals of its own, which do not look at the selectors. -/
theorem hostAction_ne_notAnInstance (a : HostAction) (s : State) :
    hostAction a s ≠ .refused .notAnInstance := by
  intro h
  cases a with
  | store addr bytes v =>
    simp only [hostAction] at h
    split at h
    · unfold storeReg at h
      split at h
      · cases issueWord_refused h
      · cases h
    · cases h
  | load addr bytes =>
    simp only [hostAction] at h
    split at h <;> cases h
  | wait =>
    simp only [hostAction] at h
    split at h <;> cases h
  | memStore a b => cases h
  | reset => cases h

/-- The selectors alone decide this refusal of a step. -/
theorem step_notAnInstance_iff (s : State) :
    step s = .refused .notAnInstance ↔ ¬ configAdmitted s.cfg = true := by
  constructor
  · intro h hc
    rw [step, if_pos hc, hostStep] at h
    split at h
    · cases h
    · exact hostAction_ne_notAnInstance _ _ h
  · exact fun hc => if_neg hc

/-- No step changes a parameter (R374). -/
theorem step_cfg {s t : State} (h : step s = .next t) : t.cfg = s.cfg := by
  obtain ⟨-, ⟨-, rfl⟩ | ⟨rest, ⟨v, -, hi⟩ | ⟨r, v, -, -, rfl⟩ | ⟨r, -, rfl⟩
    | ⟨-, ⟨-, -, rfl⟩ | ⟨-, rfl⟩⟩ | ⟨a, b, -, rfl⟩ | ⟨-, rfl⟩⟩⟩ := step_next_cases h
  · rfl
  · rcases issueWord_next_cases hi with ⟨-, rfl⟩ | ⟨-, c, -, rfl⟩ | ⟨-, r, rfl⟩
    · rfl
    · rfl
    · simp
  · simp
  · rfl
  · rfl
  · rfl
  · rfl
  · rfl

/-! ## The selected hashes at the lengths where the families agree (R323) -/

section Agreement

variable {B : Bytes}

/-- Below 512 bytes HASH64's datapath is XO's, whichever family is selected. -/
theorem selHash64_of_lt_512 (h : B.length < 512) (x : Sel64) : selHash64 x B = xoHash64 B := by
  cases x with
  | xo => rfl
  | te => exact teHash64_of_lt_512 h

theorem ntHash32_of_lt_512 (h : B.length < 512) :
    ntHash32 B = (xoHash64 B).map (fun v => v.setWidth 32) :=
  congrArg (Option.map trunc32) (teHash64_of_lt_512 h)

/-- Up to 64 bytes HASH64S's datapath is NA's, whichever family is selected. -/
theorem selHash64WithSeed_of_le_64 (h : B.length ≤ 64) (x : Sel64S) (seed : U64) :
    selHash64WithSeed x B seed = naHash64WithSeed B seed := by
  cases x with
  | na => rfl
  | uo => exact uoHash64WithSeed_of_le_64 h seed
  | xo => exact uoHash64WithSeed_of_le_64 h seed
  | te =>
    exact (teHash64WithSeed_of_lt_512 (by omega) seed).trans (uoHash64WithSeed_of_le_64 h seed)

/-- Up to 64 bytes HASH64SS's datapath is NA's, whichever family is selected. -/
theorem selHash64WithSeeds_of_le_64 (h : B.length ≤ 64) (x : Sel64S) (s0 s1 : U64) :
    selHash64WithSeeds x B s0 s1 = naHash64WithSeeds B s0 s1 := by
  cases x with
  | na => rfl
  | uo => exact uoHash64WithSeeds_of_le_64 h s0 s1
  | xo => exact uoHash64WithSeeds_of_le_64 h s0 s1
  | te =>
    exact (teHash64WithSeeds_of_lt_512 (by omega) s0 s1).trans (uoHash64WithSeeds_of_le_64 h s0 s1)

end Agreement

/-! ## Completion of an API command (R312 to R321) -/

/-- The commands of R310 that give a selected family's hash or CC's, through the DebugTweak
stage. -/
def hashCommands : List Instr :=
  [.hash32, .hash32s, .hash64, .hash64s, .hash64ss, .hash128, .hash128s]

/-- The pinned commands (R319 to R321). -/
def fingerprintCommands : List Instr := [.fp32, .fp64, .fp128]

/-- An API command reads the buffer and accepts every LEN (R84). -/
theorem reads_buffer_of_api {i : Instr} (hi : i ∈ hashCommands ++ fingerprintCommands) (n : Nat) :
    instrDomain n i = true ∧ (instrReads i).buffer = true := by
  simp only [hashCommands, fingerprintCommands, List.cons_append, List.nil_append, List.mem_cons,
    List.not_mem_nil, or_false] at hi
  obtain rfl | rfl | rfl | rfl | rfl | rfl | rfl | rfl | rfl | rfl := hi <;> exact ⟨rfl, rfl⟩

/-- No Fingerprint has a gate (R322). -/
theorem instrGate_fingerprint {i : Instr} (hi : i ∈ fingerprintCommands) (c : CoreConfig) :
    instrGate c i = noGate := by
  simp only [fingerprintCommands, List.mem_cons, List.not_mem_nil, or_false] at hi
  obtain rfl | rfl | rfl := hi <;> rfl

/-- A Fingerprint's datapath reads the buffer and nothing else of the state (R322). -/
theorem bodyOf_fingerprint {i : Instr} (hi : i ∈ fingerprintCommands) (s s' : State) :
    bodyOf s' i = bodyOf s i := by
  simp only [fingerprintCommands, List.mem_cons, List.not_mem_nil, or_false] at hi
  obtain rfl | rfl | rfl := hi <;> rfl

/-- An API command whose gate is held completes with `f` of its family's hash. -/
theorem exec_api (i : Instr) {s : State} {B : Bytes}
    (hi : i ∈ hashCommands ++ fingerprintCommands) (hf : s.fault = false)
    (hg : gateHeld s.cfg i) (hB : BufferIs s B) {α : Type} {o : Option α} {f : α → Result} (hbody : bodyOf s i B = o.map f) {h : α} (hr : o = some h) :
    exec i s = .next (complete (f h) (startIssue i.opc s)) := by
  obtain ⟨hd, hb⟩ := reads_buffer_of_api hi B.length
  exact exec_buffer i hf ((gateHeld_iff _ _).mp hg) hd hb hB (by rw [hbody, hr]; rfl)

/-- A Fingerprint completes with its datapath's words on every configuration. -/
theorem exec_fingerprint {i : Instr} {s : State} {B : Bytes} {r : Result}
    (hi : i ∈ fingerprintCommands) (hf : s.fault = false) (hB : BufferIs s B)
    (hr : bodyOf s i B = some r) :
    exec i s = .next (completedWith i.opc (resultWords r).1 (resultWords r).2 s) := by
  obtain ⟨hd, hb⟩ := reads_buffer_of_api (List.mem_append_right hashCommands hi) B.length
  rw [exec_buffer i hf (by rw [instrGate_fingerprint hi]; rfl) hd hb hB hr,
    complete_eq_completedWith]
  rw [bodyOf_hasWidth s i B r hr]
  exact resultWidth_ne_none (by rintro rfl; exact absurd hi (by decide))

/-- A command whose gate the hardware does not hold raises MISCONFIG (R342). -/
theorem exec_misconfig_of_not_gateHeld {i : Instr} {s : State} (hf : s.fault = false)
    (hg : ¬ gateHeld s.cfg i) : exec i s = .next (faultedWith i.opc 2 s) :=
  exec_misconfig i hf (Bool.eq_false_iff.mpr (mt (gateHeld_iff _ _).mpr hg))

theorem gateHeld_hash32s_iff (c : CoreConfig) : gateHeld c .hash32s ↔ gateHeld c .hash32 :=
  (gateHeld_iff c .hash32s).trans (gateHeld_iff c .hash32).symm

theorem gateHeld_hash64ss_iff (c : CoreConfig) : gateHeld c .hash64ss ↔ gateHeld c .hash64s :=
  (gateHeld_iff c .hash64ss).trans (gateHeld_iff c .hash64s).symm

/-- The empty gate is held by every hardware (R37). -/
theorem gateHeld_of_noGate {c : CoreConfig} {i : Instr} (h : instrGate c i = noGate) :
    gateHeld c i :=
  (gateHeld_iff c i).mpr (by rw [h]; rfl)

/-! ## The DebugTweak stage (R311) -/

/-- The state with the parameter DEBUG set to `b`. -/
def withDebug (b : Bool) (s : State) : State := { s with cfg := { s.cfg with debug := b } }

/-- The scramble of a result's width (R311). -/
def scramble : Result → Result
  | .none => .none
  | .w32 h => .w32 (tweak32 h)
  | .w64 h => .w64 (tweak64 h)
  | .pair p => .pair (tweak128 p)

theorem widthOf_scramble (r : Result) : widthOf (scramble r) = widthOf r := by
  cases r <;> simp only [scramble, widthOf]

section Words

variable {r : Result} {a b : U64} (hr : resultWords r = (a, b))

include hr

theorem resultWords_scramble_w32 (hw : widthOf r = .w32) :
    resultWords (scramble r) = ((tweak32 (a.setWidth 32)).setWidth 64, 0) := by
  cases r with
  | w32 h =>
    obtain ⟨rfl, -⟩ := Prod.mk.inj hr
    simp [scramble, resultWords, zext64]
  | _ => cases hw

theorem resultWords_scramble_w64 (hw : widthOf r = .w64) :
    resultWords (scramble r) = (tweak64 a, 0) := by
  cases r with
  | w64 h =>
    obtain ⟨rfl, -⟩ := Prod.mk.inj hr
    rfl
  | _ => cases hw

theorem resultWords_scramble_pair (hw : widthOf r = .pair) :
    resultWords (scramble r) = tweak128 (a, b) := by
  cases r with
  | pair p => exact congrArg tweak128 hr
  | _ => cases hw

end Words

/-- With DEBUG 1 a HASH command's datapath gives the scramble of what it gives with DEBUG 0. -/
theorem bodyOf_hash_withDebug {i : Instr} (hi : i ∈ hashCommands) (s : State) (B : Bytes) :
    bodyOf (withDebug true s) i B = (bodyOf (withDebug false s) i B).map scramble := by
  simp only [hashCommands, List.mem_cons, List.not_mem_nil, or_false] at hi
  obtain rfl | rfl | rfl | rfl | rfl | rfl | rfl := hi
  all_goals
    simp only [bodyOf, Option.map_map]
    rfl

/-- No gate looks at DEBUG. -/
theorem instrGate_withDebug (b : Bool) (s : State) (i : Instr) :
    instrGate (withDebug b s).cfg i = instrGate s.cfg i := by
  cases i <;> rfl

/-- Where DEBUG acts on a datapath as `f`, it acts as `f` on the result of the completed command: the
checks and the buffer are the same. -/
theorem exec_withDebug {i : Instr} {s : State} {a b : U64} {f : Result → Result} (hi : i ≠ .nop)
    (hf : s.fault = false) (hw : ∀ r, widthOf (f r) = widthOf r)
    (hbody : ∀ B, bodyOf (withDebug true s) i B = (bodyOf (withDebug false s) i B).map f)
    (h : exec i (withDebug false s) = .next (completedWith i.opc a b (withDebug false s))) :
    ∃ r, widthOf r = resultWidth i ∧ resultWords r = (a, b)
      ∧ exec i (withDebug true s) = .next (completedWith i.opc (resultWords (f r)).1
          (resultWords (f r)).2 (withDebug true s)) := by
  rcases exec_next_outcome (s := withDebug false s) hi hf h with
    ⟨-, ht⟩ | ⟨-, -, ht⟩ | ⟨hg, hd, B, r, hB, hr, ht⟩
  · exact absurd (congrArg State.fault ht) (by simp [completedWith, faultedWith, withDebug, hf])
  · exact absurd (congrArg State.fault ht) (by simp [completedWith, faultedWith, withDebug, hf])
  · have hwidth : widthOf r = resultWidth i := bodyOf_hasWidth _ i B r hr
    have hg' : capSubset (instrGate (withDebug true s).cfg i) s.cfg.hwcap = true := by
      rw [instrGate_withDebug] at hg ⊢
      exact hg
    have hr' : bodyOf (withDebug true s) i B = some (f r) := by rw [hbody, hr]; rfl
    refine ⟨r, hwidth, Prod.ext (congrArg State.r0 ht).symm (congrArg State.r1 ht).symm, ?_⟩
    rw [exec_complete (s := withDebug true s) hf hg' hd hB hr', complete_eq_completedWith]
    rw [hw, hwidth]
    exact resultWidth_ne_none hi

end Sys2Proof.Proofs

/-! ## The statements -/

namespace Sys2Proof.Proofs.Api

open Sys2Proof.Machine Sys2Proof.Laws

/-- Settles O24: admission is the three gate checks, and no access of the host is refused for its
selectors. -/
theorem selectorsWithinTheClaim : Obligations.SelectorsWithinTheClaim := by
  refine ⟨fun s => ?_, fun c => ⟨fun h => ?_, fun h => ?_⟩⟩
  · intro c
    rw [step_notAnInstance_iff, configAdmitted_iff, capSubset_sel32Gate_iff,
      capSubset_sel64Gate_iff, capSubset_sel64sGate_iff, and_assoc, and_assoc]
  · have hte := (capSubset_teGate_iff c).mpr h
    exact ⟨if_pos hte, if_pos hte, if_pos hte⟩
  · have hte : ¬ capSubset teGate c = true := mt (capSubset_teGate_iff c).mp h
    refine ⟨if_neg hte, if_neg hte, ?_⟩
    simp only [sel32Default, if_neg hte, capSubset_suGate_iff, capSubset_saGate_iff]

/-- Settles O54: the selected family has a value on every buffer, and its gate decides between that
value through the DebugTweak stage and MISCONFIG. -/
theorem hash32Commands : Obligations.Hash32Commands := by
  refine ⟨rfl, rfl, fun s B hf hg hB => ⟨?_, ?_, fun hsel hdebug => ?_⟩,
    fun s hf hg => ⟨exec_misconfig_of_not_gateHeld hf hg,
      exec_misconfig_of_not_gateHeld hf (mt (gateHeld_hash32s_iff _).mp hg)⟩,
    by decide +kernel, by decide +kernel, by decide +kernel, by decide +kernel⟩
  · obtain ⟨h, hr⟩ := selHash32_some s.cfg.sel32 B
    exact ⟨h, hr, exec_api .hash32 (by decide) hf hg hB rfl hr⟩
  · obtain ⟨h, hr⟩ := selHash32WithSeed_some s.cfg.sel32 B (s.x0.setWidth 32)
    exact ⟨h, hr, exec_api .hash32s (by decide) hf ((gateHeld_hash32s_iff _).mpr hg) hB rfl hr⟩
  · obtain ⟨h, hr⟩ := mkHash32_some B
    refine ⟨h.setWidth 64, ?_, exec_value32 hf hB .fp32 rfl rfl rfl rfl hr⟩
    refine exec_api .hash32 (o := mkHash32 B) (f := .w32) (by decide) hf hg hB ?_ hr
    simp only [bodyOf, hsel, hdebug]
    rfl

/-- Settles O55: as for HASH32, with the agreements of the families at short lengths. -/
theorem hash64Commands : Obligations.Hash64Commands := by
  refine ⟨rfl, rfl, rfl, fun s B hf hg hB => ?_, fun s B hf hg hB => ⟨?_, ?_⟩,
    fun s hf => ⟨exec_misconfig_of_not_gateHeld hf, fun hg => ⟨exec_misconfig_of_not_gateHeld hf hg,
      exec_misconfig_of_not_gateHeld hf (mt (gateHeld_hash64ss_iff _).mp hg)⟩⟩,
    by decide +kernel, by decide +kernel, by decide +kernel, by decide +kernel, by decide +kernel,
    by decide +kernel, by decide +kernel, by decide +kernel, by decide +kernel⟩
  · obtain ⟨h, hr⟩ := selHash64_some s.cfg.sel64 B
    exact ⟨h, hr, fun hn => (selHash64_of_lt_512 hn s.cfg.sel64).symm.trans hr,
      exec_api .hash64 (by decide) hf hg hB rfl hr⟩
  · obtain ⟨h, hr⟩ := selHash64WithSeed_some s.cfg.sel64s B s.x0
    exact ⟨h, hr, fun hn => (selHash64WithSeed_of_le_64 hn s.cfg.sel64s s.x0).symm.trans hr,
      exec_api .hash64s (by decide) hf hg hB rfl hr⟩
  · obtain ⟨h, hr⟩ := selHash64WithSeeds_some s.cfg.sel64s B s.x0 s.x1
    exact ⟨h, hr, fun hn => (selHash64WithSeeds_of_le_64 hn s.cfg.sel64s s.x0 s.x1).symm.trans hr,
      exec_api .hash64ss (by decide) hf ((gateHeld_hash64ss_iff _).mpr hg) hB rfl hr⟩

/-- Settles O56: CC has a value on every buffer and no gate; FP128 gives it without the DebugTweak
stage. -/
theorem hash128Commands : Obligations.Hash128Commands := by
  refine ⟨rfl, rfl, fun s B hf hB => ⟨?_, ?_⟩, by decide +kernel, by decide +kernel,
    by decide +kernel⟩
  · obtain ⟨p, hr⟩ := ccHash128_some B
    exact ⟨p, hr, exec_api .hash128 (by decide) hf (gateHeld_of_noGate rfl) hB rfl hr,
      exec_api .fp128 (by decide) hf (gateHeld_of_noGate rfl) hB rfl hr⟩
  · obtain ⟨p, hr⟩ := city128WithSeed_some B s.x0 s.x1
    exact ⟨p, hr, exec_api .hash128s (by decide) hf (gateHeld_of_noGate rfl) hB rfl hr⟩

/-- Settles O57: each pinned family has a value on every buffer, and no Fingerprint has a gate. -/
theorem fingerprints : Obligations.Fingerprints :=
  ⟨rfl, rfl, rfl,
    fun _ B hf hB => ⟨exec_gated_value32 hf hB .fp32 rfl rfl rfl rfl (mkHash32_some B),
      (naHash64_some B).imp fun _ hr => ⟨hr, exec_value64 hf hB .fp64 rfl rfl rfl rfl hr⟩,
      exec_gated_value_pair hf hB .fp128 rfl rfl rfl rfl (ccHash128_some B)⟩,
    by decide +kernel, by decide +kernel, by decide +kernel, by decide +kernel, by decide +kernel,
    by decide +kernel⟩

/-- Settles O58: a Fingerprint's datapath on the common buffer is the same function in both states,
and neither state's gate stops it. -/
theorem fingerprintStability : Obligations.FingerprintStability := by
  intro s s' B i hi hf hf' hB hB'
  obtain ⟨hd, hb⟩ := reads_buffer_of_api (List.mem_append_right hashCommands hi) B.length
  obtain ⟨r, hr⟩ := bodyOf_buffer s hb hd
  exact ⟨_, _, exec_fingerprint hi hf hB hr,
    exec_fingerprint hi hf' hB' (by rw [bodyOf_fingerprint hi s s', hr])⟩

/-- Settles O59: DEBUG acts on a HASH command's datapath as the scramble and on a Fingerprint's not
at all; the configuration outlives every step. -/
theorem debugTweakStage : Obligations.DebugTweakStage := by
  refine ⟨fun s i a b hf h => ?_, fun s t h => ⟨?_, configWord_debug s.cfg⟩⟩
  · have hash (hi : i ∈ hashCommands) := exec_withDebug (by rintro rfl; exact absurd hi (by decide))
      hf widthOf_scramble (bodyOf_hash_withDebug hi s) h
    refine ⟨fun hi => ?_, fun hi => ?_, fun hi => ?_, fun hi => ?_⟩
    · have hall : ∀ j ∈ [Instr.hash32, .hash32s], j ∈ hashCommands ∧ resultWidth j = .w32 := by
        decide
      obtain ⟨hmem, hwidth⟩ := hall i hi
      obtain ⟨r, hw, hr, hx⟩ := hash hmem
      rwa [resultWords_scramble_w32 hr (hw.trans hwidth)] at hx
    · have hall : ∀ j ∈ [Instr.hash64, .hash64s, .hash64ss],
          j ∈ hashCommands ∧ resultWidth j = .w64 := by decide
      obtain ⟨hmem, hwidth⟩ := hall i hi
      obtain ⟨r, hw, hr, hx⟩ := hash hmem
      rwa [resultWords_scramble_w64 hr (hw.trans hwidth)] at hx
    · have hall : ∀ j ∈ [Instr.hash128, .hash128s], j ∈ hashCommands ∧ resultWidth j = .pair := by
        decide
      obtain ⟨hmem, hwidth⟩ := hall i hi
      obtain ⟨r, hw, hr, hx⟩ := hash hmem
      rwa [resultWords_scramble_pair hr (hw.trans hwidth)] at hx
    · obtain ⟨r, -, hr, hx⟩ := exec_withDebug (f := id) (by rintro rfl; exact absurd hi (by decide))
        hf (fun _ => rfl)
        (fun B => by rw [bodyOf_fingerprint hi (withDebug false s), Option.map_id_fun, id]) h
      rwa [id, hr] at hx
  · rw [step_cfg h]

/-- Settles O60: each family's threshold sends these lengths to the same datapath. -/
theorem crossFamilyAgreement : Obligations.CrossFamilyAgreement := by
  refine fun B s0 s1 seed => ⟨fun h => ⟨teHash64_of_lt_512 h, teHash64WithSeed_of_lt_512 h s0,
      teHash64WithSeeds_of_lt_512 h s0 s1, ntHash32_of_lt_512 h, fun x y => ?_⟩,
    fun h => ⟨uoHash64_of_le_64 h, uoHash64WithSeed_of_le_64 h s0,
      uoHash64WithSeeds_of_le_64 h s0 s1, uoHash64WithSeed_of_le_64 h s0,
      uoHash64WithSeeds_of_le_64 h s0 s1, fun x y => ⟨?_, ?_⟩⟩,
    xoHash64_of_le_32,
    fun h => ⟨suHash32_of_le_24 h, saHash32_of_le_24 h, suHash32WithSeed_of_le_24 h seed,
      saHash32WithSeed_of_le_24 h seed⟩⟩
  · rw [selHash64_of_lt_512 h, selHash64_of_lt_512 h]
  · rw [selHash64WithSeed_of_le_64 h, selHash64WithSeed_of_le_64 h]
  · rw [selHash64WithSeeds_of_le_64 h, selHash64WithSeeds_of_le_64 h]

end Sys2Proof.Proofs.Api

/-! # Faults, completion and reset

Settles the statements of 60_exceptions.md and 70_reset_and_hazards.md. The facts come first: what a
halted engine does with a CMD write, which fault a command can raise and when, how a CMD write ends,
and what a reset leaves; the settled statements follow, in a namespace of their own. -/

namespace Sys2Proof.Proofs

open Sys2Proof.Machine Sys2Proof.Laws

/-! ## The halted engine (R347) -/

/-- A halted engine ignores a CMD write, whatever its word. -/
theorem issueWord_of_halted {s : State} (h : s.fault = true) (v : U64) :
    issueWord v s = .next s :=
  if_pos h

/-- A step of a halted engine other than a reset keeps FAULT, FCODE and LAST_OPC. -/
theorem step_keeps_fault {s t : State} (hf : s.fault = true) (h : step s = .next t)
    (hr : ∀ rest, s.pending ≠ .reset :: rest) :
    t.fault = true ∧ t.fcode = s.fcode ∧ t.lastOpc = s.lastOpc := by
  rcases step_status_cases h with ⟨v, rest, -, hi⟩ | ⟨rest, hp⟩ | ⟨-, hfault, hcode, hopc⟩
  · rw [issueWord_of_halted (s := { s with pending := rest }) hf] at hi
    obtain rfl := Host.Outcome.next.inj hi
    exact ⟨hf, rfl, rfl⟩
  · exact absurd hp (hr rest)
  · exact ⟨hfault.trans hf, hcode, hopc⟩

/-! ## Which fault a command raises (R342, R344, R345) -/

/-- A command that faults on an engine not halted raises MISCONFIG when its gate is not held, and
DOMAIN when it is and LEN is outside the domain; there is no third reason. -/
theorem fault_reason_of_exec {i : Instr} {s t : State} (hf : s.fault = false)
    (h : exec i s = .next t) (ht : t.fault = true) :
    (¬ gateHeld s.cfg i ∧ t.fcode = 2)
      ∨ (gateHeld s.cfg i ∧ ¬ lenHeld s.len.toNat i ∧ t.fcode = 3) := by
  rw [exec_eq_issue] at h
  rw [gateHeld_iff, lenHeld_iff s.len.isLt]
  rcases issue_next_cases h with ⟨hf', -⟩ | ⟨-, hg, rfl⟩ | ⟨-, hg, hd, rfl⟩
    | ⟨-, -, -, B, r, -, -, rfl⟩
  · simp [hf] at hf'
  · exact .inl ⟨by simp [hg], rfl⟩
  · exact .inr ⟨hg, by simp [hd], rfl⟩
  · simp [hf] at ht

/-- A command with a bounded domain has no gate (R84). -/
theorem instrGate_of_kernelDomain {i : Instr} {d : Nat × Nat} (h : kernelDomain i = some d)
    (c : CoreConfig) : instrGate c i = noGate := by
  cases i
  case fetch32 | fetch64 | naLen0to16 | naLen17to32 | naLen33to64 | weak32m | xoH32 | xoLen33to64
    | xoLen65to96 | mkLen0to4 | mkLen5to12 | mkLen13to24 | ccLen0to4 | ccLen5to12 | ccLen13to24
    | ccCitymurmur => rfl
  all_goals cases h

/-- Past the gate check, LEN alone decides on DOMAIN: SRC and the memory play no part. -/
theorem exec_domain_of_not_lenHeld {i : Instr} {s : State} (hf : s.fault = false)
    (hg : gateHeld s.cfg i) (hl : ¬ lenHeld s.len.toNat i) :
    exec i s = .next (faultedWith i.opc 3 s) :=
  exec_domain i hf ((gateHeld_iff _ _).mp hg)
    (Bool.eq_false_iff.mpr (mt (lenHeld_iff s.len.isLt i).mpr hl))

/-- The commands of the families that have a gate of their own (R37, R84). -/
def gatedCommands : List Instr :=
  [.teH64, .teH64s, .teH64ss, .ntH32, .ntH32s, .suH32, .suH32s, .saH32, .saH32s]

/-- A gated family command accepts every LEN and has a result. -/
theorem lenHeld_of_gated {i : Instr} (hi : i ∈ gatedCommands) (n : Nat) :
    lenHeld n i ∧ i ≠ .nop := by
  have hall : ∀ j ∈ gatedCommands, kernelDomain j = none ∧ j ≠ .nop := by decide
  obtain ⟨hd, hn⟩ := hall i hi
  exact ⟨fun d h => by simp [hd] at h, hn⟩

/-- The state with the claimed capabilities `claim`. -/
def withClaim (claim : CapSet) (s : State) : State :=
  { s with cfg := { s.cfg with claimcap := claim } }

/-- A gated family command whose gate the hardware holds completes under every claim: neither the
gate nor the buffer looks at CLAIMCAP. -/
theorem exec_gated_withClaim {i : Instr} {s : State} {B : Bytes} (hi : i ∈ gatedCommands)
    (hf : s.fault = false) (hg : gateHeld s.cfg i) (hB : BufferIs s B) (claim : CapSet) :
    ∃ a b, exec i (withClaim claim s) = .next (completedWith i.opc a b (withClaim claim s)) := by
  obtain ⟨hl, hn⟩ := lenHeld_of_gated hi s.len.toNat
  obtain ⟨-, hx⟩ := readyCommandsComplete (withClaim claim s) i hf hg hl fun _ => ⟨B, hB⟩
  obtain ⟨a, b, hx, -⟩ := hx hn
  exact ⟨a, b, hx⟩

/-! ## How a CMD write ends (R380) -/

/-- A command that has the buffer it reads answers a next state. -/
theorem exec_next_of_buffer {i : Instr} {s : State}
    (hB : i ∉ registerOnly → ∃ B, BufferIs s B) : ∃ t, exec i s = .next t := by
  cases hf : s.fault with
  | true => exact ⟨s, by rw [exec_eq_issue, issue_ignored hf]⟩
  | false =>
    by_cases hg : gateHeld s.cfg i
    · by_cases hl : lenHeld s.len.toNat i
      · have hd := (lenHeld_iff s.len.isLt i).mp hl
        obtain ⟨B, r, hB, hr⟩ := bodyOf_ready hd hB
        exact ⟨_, exec_complete hf ((gateHeld_iff _ _).mp hg) hd hB hr⟩
      · exact ⟨_, exec_domain_of_not_lenHeld hf hg hl⟩
    · exact ⟨_, exec_misconfig_of_not_gateHeld hf hg⟩

/-- A command stops only where its buffer read does, and an empty buffer is never in the way (R61,
R65). -/
theorem exec_cases (i : Instr) (s : State) :
    (∃ t, exec i s = .next t)
    ∨ (∃ why, exec i s = .fault (.stuck why) ∧ 0 < s.len.toNat)
    ∨ (exec i s = .refused .sideEffectMemory ∧ 0 < s.len.toNat) := by
  by_cases h0 : s.len = 0
  · exact .inl (exec_next_of_buffer fun _ => ⟨[], bufferIs_nil h0⟩)
  · have hpos : 0 < s.len.toNat := Nat.pos_of_ne_zero fun h => h0 (BitVec.eq_of_toNat_eq h)
    have hrange := exec_ne_internalRange i s
    rw [exec_eq_issue] at hrange ⊢
    rcases issue_cases i s (bodyOf s i) with hn | ⟨why, hx, -⟩ | ⟨hx, -⟩ | ⟨hx, -⟩
    · exact .inl hn
    · exact .inr (.inl ⟨why, hx, hpos⟩)
    · exact .inr (.inr ⟨hx, hpos⟩)
    · exact absurd hx hrange

/-- A CMD write ends as its command does; a word that is no command raises ILLEGAL_OP or is
ignored. -/
theorem issueWord_cases (v : U64) (s : State) :
    (∃ t, issueWord v s = .next t)
    ∨ (∃ why, issueWord v s = .fault (.stuck why) ∧ 0 < s.len.toNat)
    ∨ (issueWord v s = .refused .sideEffectMemory ∧ 0 < s.len.toNat) := by
  cases hd : decode v with
  | ok i =>
    rw [issueWord_of_decode hd]
    exact exec_cases i s
  | error e =>
    cases hf : s.fault with
    | true => exact .inl ⟨s, issueWord_of_halted hf v⟩
    | false => exact .inl ⟨_, issueWord_of_rejected hf hd⟩

/-! ## Reset (R48, R370) -/

/-- A step in which the engine is reset. -/
theorem step_reset {s : State} {rest : List HostAction} (hc : configAdmitted s.cfg = true)
    (hp : s.pending = .reset :: rest) :
    step s = .next (resetEngine { s with pending := rest }) :=
  step_pending hc hp

/-- After a reset STATUS reads what it reads in `State.reset`. -/
theorem statusWord_resetEngine (s : State) : statusWord (resetEngine s) = 0 :=
  (statusWord_congr (s := State.reset) rfl rfl rfl rfl).trans rfl

end Sys2Proof.Proofs

/-! ## The statements -/

namespace Sys2Proof.Proofs.Faults

open Sys2Proof.Machine Sys2Proof.Laws

/-- Settles O5: only a CMD write is ignored, and the step lemmas of the other accesses do not look
at FAULT. -/
theorem haltedEngine : Obligations.HaltedEngine := by
  refine fun s hf => ⟨fun v rest h => ?_, fun r v rest h => ⟨_, step_store_operand h,
      readReg_writeReg_operand r v _, fun r' hr => ?_⟩, fun r rest h => ?_,
    fun t h hr => step_keeps_fault hf h hr,
    fun rest hc hp => ⟨_, step_reset hc hp, resetEngine_fault _⟩⟩
  · rw [step_cmd h]
    exact issueWord_of_halted (s := { s with pending := rest }) hf v
  · obtain ⟨hread, -⟩ := writeReg_operand_frame hr v { s with pending := rest }
    exact hread.trans (readReg_pending r' s rest)
  · rw [step_load h, loadReg, readReg_pending]

/-- Settles O6: of the three ways a CMD write answers a next state, only the fault ends in
FAULT 1. -/
theorem faultEntry : Obligations.FaultEntry := by
  intro s t v rest h hf hs ht
  rw [step_cmd h] at hs
  rcases issueWord_next_cases hs with ⟨hf', -⟩ | ⟨-, c, hc, rfl⟩ | ⟨-, r, rfl⟩
  · simp [hf] at hf'
  · exact ⟨c, hc, rfl⟩
  · simp [hf] at ht

/-- Settles O7: MISCONFIG is the fault of a command whose gate is not held and of no other. -/
theorem misconfigGates : Obligations.MisconfigGates := by
  refine ⟨fun s i hf hg => exec_misconfig_of_not_gateHeld hf hg, fun s i hf hg h => ?_,
    fun s B claim i hi hf hg hB => exec_gated_withClaim hi hf hg hB claim⟩
  rcases fault_reason_of_exec hf h rfl with ⟨hg', -⟩ | ⟨-, -, hcode⟩
  · exact hg' hg
  · exact absurd hcode (show (2 : BitVec 4) ≠ 3 by decide)

/-- Settles O8: no kernel with a bounded domain has a gate, so its LEN check is the first to fail,
and DOMAIN is the fault of a LEN outside the domain and of no other. -/
theorem domainFaults : Obligations.DomainFaults := by
  refine ⟨fun s i d hf hd hout => ?_, fun s i hf hl h => ?_⟩
  · refine exec_domain_of_not_lenHeld hf (gateHeld_of_noGate (instrGate_of_kernelDomain hd _)) ?_
    intro hl
    obtain ⟨hlo, hhi⟩ := hl d hd
    omega
  · rcases fault_reason_of_exec hf h rfl with ⟨-, hcode⟩ | ⟨-, hl', -⟩
    · exact absurd hcode (show (3 : BitVec 4) ≠ 2 by decide)
    · exact hl' hl

/-- Settles O11: the step is the issue of the word, which shows an outcome when it answers a next
state. -/
theorem everyCommandEnds : Obligations.EveryCommandEnds := by
  intro s v rest h
  rw [step_cmd h]
  rcases issueWord_cases v { s with pending := rest } with ⟨t, ht⟩ | hstuck | hrefused
  · obtain ⟨-, -, hout⟩ := issueWord_outcome ht
    exact .inl ⟨t, ht, hout⟩
  · exact .inr (.inl hstuck)
  · exact .inr (.inr hrefused)

/-- Settles O14: CAP and CONFIG read the configuration, which no step changes. -/
theorem configurationIsFixed : Obligations.ConfigurationIsFixed := by
  intro s t h
  have hcfg := step_cfg h
  exact ⟨hcfg, by simp only [readReg, hcfg], by simp only [readReg, hcfg]⟩

/-- Settles O25: the fields of `resetEngine`, with each register that is unwritten at reset unwritten
after one. -/
theorem resetOfTheEngine : Obligations.ResetOfTheEngine := by
  obtain ⟨-, -, -, -, hunwritten, -⟩ := stateAfterReset
  exact ⟨fun s rest hc hp => ⟨_, step_reset hc hp, resetEngine_done _, resetEngine_fault _,
      resetEngine_fcode _, resetEngine_lastOpc _, statusWord_resetEngine _,
      fun r hr => regUnwritten_resetEngine (hunwritten r hr) _, resetEngine_cfg _,
      resetEngine_mem _⟩,
    fun s t h hs ht => reset_of_fault_cleared h hs ht⟩

end Sys2Proof.Proofs.Faults
